-- ==== Sys2Proof/Word.lean ====
section
/-! DEFINITION. The widths of the part: bytes, 16-bit and 32-bit fields (00 section 5, 11), the
numbers of its ports, channels, slots, records (00 section 5.2, R3, R103) and one store row (R156). -/

namespace Sys2Proof

abbrev Byte := BitVec 8
abbrev Half := BitVec 16
abbrev Word := BitVec 32

/-- Ports P0 to P3 (00 section 5.2). -/
abbrev Port := Fin 4

/-- Gate channels G0 to G3 (00 section 5.2). -/
abbrev Channel := Fin 4

/-- Slots 0 to 7 of one port (R103). -/
abbrev SlotIx := Fin 8

/-- Indices 0 to 23 of the claim table (R3). -/
abbrev RecIx := Fin 24

/-- A store row: 32 bytes (R156). -/
abbrev Row := Vector Byte 32

/-- 4294967295, the greatest floor (R56) and the last value of the tick counter (R32). -/
def maxWord : Word := 0xFFFFFFFF#32

end Sys2Proof
end

