-- ==== Sys2Proof/Config.lean ====
section
/-! DEFINITION. The free values: what the manual leaves open, as constants without a body, applied to
the counter State.free. Nothing evaluates them and no proof knows a value of them. -/

namespace Sys2Proof

/-- What a row whose erase was cut short by a device reset reads as (R160). -/
inductive EraseTear where
  | oldContent
  | blank
  | corrupt
deriving DecidableEq, Repr, Inhabited

namespace Config

/-- Which of the three conditions of R160 a torn erase leaves (log 8). -/
opaque eraseTear : Nat → EraseTear

/-- Whether a torn write had not yet written a byte, so that the row is blank (R160, log 8). -/
opaque writeTearBlank : Nat → Bool

/-- Whether a row that failed its verification is blank; otherwise it is corrupt (R59, log 9). -/
opaque failedRowBlank : Nat → Bool

/-- The bytes of a corrupt row (R59, R160, log 8, log 9). -/
opaque corruptContent : Nat → Row

/-- Which of the events due in one tick the part takes next, where the queue leaves them to it
(R18, R40, R43, R87, log 5). -/
opaque dueChoice : Nat → Nat

/-- A bit that SDO carries after the status byte of a transaction whose kind byte is not recognised
(R138, log 11). -/
opaque sdoAfterUnrecognised : Nat → Bool

/-- The level of SDO between the fall of CSn and the first bit of a transaction in mode 3 (R136, R137,
log 29). -/
opaque sdoBeforeFirstBit : Nat → Bool

/-- The level SDO is driven with while a port ignores a transaction whose CSn was low already as the part left
reset (R136, R138, log 30). -/
opaque sdoWhileIgnored : Nat → Bool

end Config

end Sys2Proof
end

