-- ==== Sys2Proof/Syntax.lean ====
section
/-! DEFINITION. The commands and events of the part: one constructor for each row of
spec/opcode_table.json. Operands of the 24 host commands are the parameters of the command table of
Chapter 11, as the frame carries them, behind the port that sent them. -/

namespace Sys2Proof

/-- A change of one of a port's three link inputs to a level, true is high (R136). -/
inductive PinChange where
  | csn (level : Bool)
  | sck (level : Bool)
  | sdi (level : Bool)
deriving DecidableEq, Repr

/-- The steps of the part, each whole and indivisible (95_what_each_step_holds.md). -/
inductive Instr where
  /-- HELLO from port `p` (R90 to R92). -/
  | hello (p : Port)
  /-- BYE from port `p` (R93). -/
  | bye (p : Port)
  /-- ACQUIRE: key, mode code, lease and wait in ticks (R19 to R23). -/
  | acquire (p : Port) (key : Word) (mode : Byte) (lease wait : Half)
  /-- RELEASE: key and token (R26). -/
  | release (p : Port) (key token : Word)
  /-- CANCEL: key (R27). -/
  | cancel (p : Port) (key : Word)
  /-- RENEW: key, token and new lease (R37, R38). -/
  | renew (p : Port) (key token : Word) (lease : Half)
  /-- VERIFY: key and token (R70). -/
  | verify (p : Port) (key token : Word)
  /-- PEEK_NOTICE (R113). -/
  | peekNotice (p : Port)
  /-- ACK_NOTICE: sequence number (R114). -/
  | ackNotice (p : Port) (seq : Byte)
  /-- LOOKUP: key (R124). -/
  | lookup (p : Port) (key : Word)
  /-- LIST: start index (R128). -/
  | list (p : Port) (start : Byte)
  /-- TIME (R130). -/
  | time (p : Port)
  /-- STATUS (R131). -/
  | status (p : Port)
  /-- IDENT (R134). -/
  | ident (p : Port)
  /-- MYSLOT: slot index (R106). -/
  | mySlot (p : Port) (index : Byte)
  /-- REVOKE: key and target, a port number or FFh for ALL (R28, R29). -/
  | revoke (p : Port) (key : Word) (target : Byte)
  /-- EJECT: target port number (R97, R98). -/
  | eject (p : Port) (target : Byte)
  /-- RESTART (R189). -/
  | restart (p : Port)
  /-- STAGE_BEGIN (R166). -/
  | stageBegin (p : Port)
  /-- STAGE_SET: item code, index, value (R168). -/
  | stageSet (p : Port) (item index : Byte) (value : Word)
  /-- STAGE_READ: item code, index (R169). -/
  | stageRead (p : Port) (item index : Byte)
  /-- STAGE_ABORT (R169). -/
  | stageAbort (p : Port)
  /-- COMMIT (R170, R171). -/
  | commit (p : Port)
  /-- STAGE_STATUS (R176). -/
  | stageStatus (p : Port)
  /-- A SEND transaction, or a part of it: the changes of the pins of port `p`, the first and those behind
  it (R139, R142). Where other events of the part fall inside a transaction, its changes stand in several
  rows around them (log 10). -/
  | send (p : Port) (first : PinChange) (rest : List PinChange)
  /-- A FETCH transaction, or a part of it (R149). -/
  | fetch (p : Port) (first : PinChange) (rest : List PinChange)
  /-- A POLL transaction, or a part of it (R140). -/
  | poll (p : Port) (first : PinChange) (rest : List PinChange)
  /-- A transaction whose kind byte is none of the three, or a part of it (R138). -/
  | unrecognisedKindByte (p : Port) (first : PinChange) (rest : List PinChange)
  /-- TICK (R32). -/
  | tick
  /-- The lease deadline of the holding of port `p` on `key` is taken (R39). -/
  | leaseExpiry (p : Port) (key : Word)
  /-- The wait deadline of the entry of port `p` on `key` is taken (R43). -/
  | waitExpiry (p : Port) (key : Word)
  /-- The guard deadline of a channel is taken (R76). -/
  | guardDeadline (ch : Channel)
  /-- A change of the GINH pin to `level` (high is asserted) is taken at a channel (R77). -/
  | ginhChange (ch : Channel) (level : Bool)
  /-- The next grant pass that a report of availability causes (R16). -/
  | reservedHeadPass
  /-- The next withdrawal that a fault report causes (R63). -/
  | tokenFaultWithdrawal
  /-- The erase phase of the row attempt completes (R157). -/
  | rowEraseDone
  /-- The write phase of the row attempt completes (R157). -/
  | rowWriteDone
  /-- The verify phase ends: the row read back matches the request, or does not (R157). -/
  | rowVerifyEnd (matched : Bool)
  /-- The supply falls below the warning threshold (R187). -/
  | supplyLowSet
  /-- The supply rises above the warning threshold plus its hysteresis (R187). -/
  | supplyLowClear
  /-- The supply falls below the brownout threshold outside IN_RESET (R188). -/
  | brownout
  /-- The supply falls below the power-on level (R188). -/
  | supplyBelowPowerOnLevel
  /-- The supply rises through the power-on level (R188). -/
  | powerOn
  /-- The supply reaches the release level (R188). -/
  | supplyRelease
  /-- RST is taken as low (R182). -/
  | rstTakenLow
  /-- RST is taken as high (R182). -/
  | rstTakenHigh
  /-- The tick at which the RESTART hold ends (R190). -/
  | restartHoldEnd
  /-- Steps 5 and 6 of BOOT (R185). -/
  | bootEnd
  /-- The supply falls below the brownout threshold inside IN_RESET (R181). -/
  | supplyBelowBrownoutInReset
deriving DecidableEq, Repr

end Sys2Proof
end

