-- ==== Sys2Proof/Decode.lean ====
section
/-! DEFINITION. Bits, bytes and check codes (R137, R191, R192), command frames to and from commands
(R141, R143, the command table of 11.2), and the table decoder: no row of spec/opcode_table.json gives
bits, so no word spells a command there (log 22). -/

namespace Sys2Proof

/-- The command a word spells by the table's bits: none, the table gives no bits (log 22). -/
def decodeTableWord (_nbits _w : Nat) : Option Instr := none

/-! ### Bytes -/

/-- A 16-bit field, most significant byte first (00 section 5.1). -/
def half (b1 b0 : Byte) : Half := b1 ++ b0

/-- A 32-bit field, most significant byte first (00 section 5.1). -/
def word (b3 b2 b1 b0 : Byte) : Word := b3 ++ b2 ++ b1 ++ b0

/-- The bytes of a 16-bit field, most significant first. -/
def halfBytes (h : Half) : List Byte := [h.extractLsb' 8 8, h.extractLsb' 0 8]

/-- The bytes of a 32-bit field, most significant first. -/
def wordBytes (w : Word) : List Byte :=
  [w.extractLsb' 24 8, w.extractLsb' 16 8, w.extractLsb' 8 8, w.extractLsb' 0 8]

/-- A byte from its bits, most significant first (R137). -/
def byteOfBits (b7 b6 b5 b4 b3 b2 b1 b0 : Bool) : Byte :=
  BitVec.ofBool b7 ++ BitVec.ofBool b6 ++ BitVec.ofBool b5 ++ BitVec.ofBool b4 ++
    BitVec.ofBool b3 ++ BitVec.ofBool b2 ++ BitVec.ofBool b1 ++ BitVec.ofBool b0

/-- The bits of a byte in the order they travel (R137). -/
def bitsOfByte (b : Byte) : List Bool :=
  [b.getLsbD 7, b.getLsbD 6, b.getLsbD 5, b.getLsbD 4, b.getLsbD 3, b.getLsbD 2, b.getLsbD 1,
    b.getLsbD 0]

/-- The bits of a run of bytes in the order they travel. -/
def bitsOfBytes (bs : List Byte) : List Bool := bs.flatMap bitsOfByte

/-- The complete bytes of a run of sampled bits; bits after the last complete byte form no byte
(R137). -/
def bytesOfBits : List Bool → List Byte
  | b7 :: b6 :: b5 :: b4 :: b3 :: b2 :: b1 :: b0 :: rest =>
    byteOfBits b7 b6 b5 b4 b3 b2 b1 b0 :: bytesOfBits rest
  | _ => []

/-! ### Check codes -/

/-- One shift of the frame CRC register, polynomial 07h (R191). -/
def crc8Shift (r : Byte) : Byte := if r.msb then (r <<< 1) ^^^ 0x07#8 else r <<< 1

/-- One byte into the frame CRC (R191). -/
def crc8Byte (r b : Byte) : Byte := Nat.repeat crc8Shift 8 (r ^^^ b)

/-- The frame CRC-8 (R191). -/
def crc8 (bs : List Byte) : Byte := bs.foldl crc8Byte 0xFF#8

/-- One shift of the row CRC register, polynomial 1021h (R192). -/
def crc16Shift (r : Half) : Half := if r.msb then (r <<< 1) ^^^ 0x1021#16 else r <<< 1

/-- One byte into the row CRC, combined with the upper eight bits of the register (R192). -/
def crc16Byte (r : Half) (b : Byte) : Half := Nat.repeat crc16Shift 8 (r ^^^ (b ++ 0x00#8))

/-- The row CRC-16 (R192). -/
def crc16 (bs : List Byte) : Half := bs.foldl crc16Byte 0xFFFF#16

/-! ### Kind bytes and command codes (11.2) -/

def kindSend : Byte := 0xA1#8
def kindFetch : Byte := 0xA2#8
def kindPoll : Byte := 0xA4#8

/-- The fixed length byte of a recognised command code; none for any other code (11.2). -/
def lengthOfCode (code : Byte) : Option Nat :=
  match code with
  | 0x10#8 => some 3
  | 0x11#8 => some 3
  | 0x20#8 => some 12
  | 0x21#8 => some 13
  | 0x22#8 => some 11
  | 0x23#8 => some 7
  | 0x28#8 => some 11
  | 0x30#8 => some 3
  | 0x31#8 => some 4
  | 0x40#8 => some 7
  | 0x41#8 => some 4
  | 0x42#8 => some 4
  | 0x43#8 => some 3
  | 0x44#8 => some 3
  | 0x45#8 => some 3
  | 0x50#8 => some 8
  | 0x51#8 => some 4
  | 0x52#8 => some 3
  | 0x60#8 => some 3
  | 0x61#8 => some 9
  | 0x62#8 => some 5
  | 0x63#8 => some 3
  | 0x64#8 => some 3
  | 0x65#8 => some 3
  | _ => none

/-- The command of port `p` that a code and its parameter bytes name (11.2); none where the code is
not recognised or the number of parameter bytes is not the command's. -/
def commandOf (p : Port) (code : Byte) (params : List Byte) : Option Instr :=
  match code, params with
  | 0x10#8, [] => some (.hello p)
  | 0x11#8, [] => some (.bye p)
  | 0x20#8, [k3, k2, k1, k0, m, l1, l0, w1, w0] =>
    some (.acquire p (word k3 k2 k1 k0) m (half l1 l0) (half w1 w0))
  | 0x21#8, [k3, k2, k1, k0, t3, t2, t1, t0, l1, l0] =>
    some (.renew p (word k3 k2 k1 k0) (word t3 t2 t1 t0) (half l1 l0))
  | 0x22#8, [k3, k2, k1, k0, t3, t2, t1, t0] =>
    some (.release p (word k3 k2 k1 k0) (word t3 t2 t1 t0))
  | 0x23#8, [k3, k2, k1, k0] => some (.cancel p (word k3 k2 k1 k0))
  | 0x28#8, [k3, k2, k1, k0, t3, t2, t1, t0] =>
    some (.verify p (word k3 k2 k1 k0) (word t3 t2 t1 t0))
  | 0x30#8, [] => some (.peekNotice p)
  | 0x31#8, [seq] => some (.ackNotice p seq)
  | 0x40#8, [k3, k2, k1, k0] => some (.lookup p (word k3 k2 k1 k0))
  | 0x41#8, [start] => some (.list p start)
  | 0x42#8, [index] => some (.mySlot p index)
  | 0x43#8, [] => some (.time p)
  | 0x44#8, [] => some (.status p)
  | 0x45#8, [] => some (.ident p)
  | 0x50#8, [k3, k2, k1, k0, target] => some (.revoke p (word k3 k2 k1 k0) target)
  | 0x51#8, [target] => some (.eject p target)
  | 0x52#8, [] => some (.restart p)
  | 0x60#8, [] => some (.stageBegin p)
  | 0x61#8, [item, index, v3, v2, v1, v0] => some (.stageSet p item index (word v3 v2 v1 v0))
  | 0x62#8, [item, index] => some (.stageRead p item index)
  | 0x63#8, [] => some (.stageAbort p)
  | 0x64#8, [] => some (.commit p)
  | 0x65#8, [] => some (.stageStatus p)
  | _, _ => none

/-- The port, command code and parameter bytes of a host command (11.2); none for an event or a
transaction. -/
def wireOf (i : Instr) : Option (Port × Byte × List Byte) :=
  match i with
  | .hello p => some (p, 0x10#8, [])
  | .bye p => some (p, 0x11#8, [])
  | .acquire p key mode lease wait =>
    some (p, 0x20#8, wordBytes key ++ [mode] ++ halfBytes lease ++ halfBytes wait)
  | .renew p key token lease => some (p, 0x21#8, wordBytes key ++ wordBytes token ++ halfBytes lease)
  | .release p key token => some (p, 0x22#8, wordBytes key ++ wordBytes token)
  | .cancel p key => some (p, 0x23#8, wordBytes key)
  | .verify p key token => some (p, 0x28#8, wordBytes key ++ wordBytes token)
  | .peekNotice p => some (p, 0x30#8, [])
  | .ackNotice p seq => some (p, 0x31#8, [seq])
  | .lookup p key => some (p, 0x40#8, wordBytes key)
  | .list p start => some (p, 0x41#8, [start])
  | .mySlot p index => some (p, 0x42#8, [index])
  | .time p => some (p, 0x43#8, [])
  | .status p => some (p, 0x44#8, [])
  | .ident p => some (p, 0x45#8, [])
  | .revoke p key target => some (p, 0x50#8, wordBytes key ++ [target])
  | .eject p target => some (p, 0x51#8, [target])
  | .restart p => some (p, 0x52#8, [])
  | .stageBegin p => some (p, 0x60#8, [])
  | .stageSet p item index value => some (p, 0x61#8, [item, index] ++ wordBytes value)
  | .stageRead p item index => some (p, 0x62#8, [item, index])
  | .stageAbort p => some (p, 0x63#8, [])
  | .commit p => some (p, 0x64#8, [])
  | .stageStatus p => some (p, 0x65#8, [])
  | .send _ _ _ => none
  | .fetch _ _ _ => none
  | .poll _ _ _ => none
  | .unrecognisedKindByte _ _ _ => none
  | .tick => none
  | .leaseExpiry _ _ => none
  | .waitExpiry _ _ => none
  | .guardDeadline _ => none
  | .ginhChange _ _ => none
  | .reservedHeadPass => none
  | .tokenFaultWithdrawal => none
  | .rowEraseDone => none
  | .rowWriteDone => none
  | .rowVerifyEnd _ => none
  | .supplyLowSet => none
  | .supplyLowClear => none
  | .brownout => none
  | .supplyBelowPowerOnLevel => none
  | .powerOn => none
  | .supplyRelease => none
  | .rstTakenLow => none
  | .rstTakenHigh => none
  | .restartHoldEnd => none
  | .bootEnd => none
  | .supplyBelowBrownoutInReset => none

/-- The command code a reply echoes (R147); 0 for what is no host command. -/
def codeOf (i : Instr) : Byte :=
  match wireOf i with
  | some (_, code, _) => code
  | none => 0x00#8

/-! ### Command frames -/

/-- A frame from its tag, code and further bytes: the length byte counts what follows it, the CRC
included (R141, R148). -/
def frameOf (tag : BitVec 4) (code : Byte) (rest : List Byte) : List Byte :=
  let body := BitVec.ofNat 8 (rest.length + 3) :: (0x0#4 ++ tag : Byte) :: code :: rest
  body ++ [crc8 body]

/-- The command frame of a host command (R141); none for what is no host command. -/
def encodeFrame (tag : BitVec 4) (i : Instr) : Option (List Byte) :=
  match wireOf i with
  | some (_, code, params) => some (frameOf tag code params)
  | none => none

/-- The parts of a frame that passed the checks of R143 on length, CRC and tag. -/
structure FrameParts where
  len : Nat
  tag : BitVec 4
  code : Byte
  params : List Byte
deriving DecidableEq, Repr

/-- The first four checks of R143 on the bytes a SEND stored; bytes after the frame's last are not
part of it (R139). -/
def splitFrame (rx : List Byte) : Option FrameParts :=
  match rx with
  | [] => none
  | len :: rest =>
    let n := len.toNat
    if n < 3 ∨ 15 < n ∨ rest.length < n then none
    else
      let covered := rest.take (n - 1)
      if rest.getD (n - 1) 0x00#8 ≠ crc8 (len :: covered) then none
      else
        match covered with
        | tag :: code :: params =>
          if tag.extractLsb' 4 4 ≠ 0x0#4 then none
          else some ⟨n, tag.extractLsb' 0 4, code, params⟩
        | _ => none

/-- What the checks of R143 and the command table say of a received frame. -/
inductive FrameReading where
  /-- The frame fails a framing check (R143). -/
  | fault
  /-- The command code is not recognised (R146). -/
  | unknown (tag : BitVec 4) (code : Byte)
  /-- A command of the table (R147). -/
  | command (tag : BitVec 4) (i : Instr)
deriving DecidableEq, Repr

/-- Reading the frame of a SEND on port `p`: the checks of R143, then the command table. -/
def readFrame (p : Port) (rx : List Byte) : FrameReading :=
  match splitFrame rx with
  | none => .fault
  | some f =>
    match lengthOfCode f.code with
    | none => .unknown f.tag f.code
    | some n =>
      if f.len ≠ n then .fault
      else
        match commandOf p f.code f.params with
        | some i => .command f.tag i
        | none => .fault

/-! ### Store rows -/

/-- A row from the bytes of its fields: fill is 00h (R194), then the CRC-16 over the first 30 bytes
(R192). -/
def rowOf (fields : List Byte) : Row :=
  let body := (List.range 30).map fun i => fields.getD i 0x00#8
  let all := body ++ halfBytes (crc16 body)
  Vector.ofFn fun i : Fin 32 => all.getD i.val 0x00#8

/-- An erased row: every byte FFh (R156, R157). -/
def blankRow : Row := Vector.replicate 32 0xFF#8

end Sys2Proof
end

