-- ==== Sys2Proof/Machine/State.lean ====
section
/-! DEFINITION. The state of the part, block by block (00 section 3.1), as plain data, and the state
right after reset. -/

namespace Sys2Proof.Machine

/-! ### Claims (Chapter 1) and slots (Chapter 5) -/

/-- The two claim modes (R2). -/
inductive Mode where
  | exclusive
  | shared
deriving DecidableEq, Repr

/-- The state of a waiter entry (R5). -/
inductive WaiterState where
  | queued
  | reserved
deriving DecidableEq, Repr

/-- A holding (R4); its port is its place among the record's holders. -/
structure Holding where
  mode : Mode
  token : Word
  deadline : Word
  slot : SlotIx
deriving DecidableEq, Repr

/-- A waiter entry (R5). -/
structure Waiter where
  port : Port
  mode : Mode
  lease : Half
  deadline : Word
  state : WaiterState
  slot : SlotIx
deriving DecidableEq, Repr

/-- A claim record (R3): at most one holding for each port, and the queue of waiters, oldest first. -/
structure Record where
  key : Word
  holders : Vector (Option Holding) 4
  waiters : List Waiter
deriving DecidableEq, Repr

/-- A slot with the fields of its state (R103). -/
inductive Slot where
  | free
  | waiting (key : Word) (mode : Mode) (deadline : Word) (lease : Half)
  | reserved (key : Word) (mode : Mode) (deadline : Word) (lease : Half)
  | holding (key : Word) (mode : Mode) (token : Word) (deadline : Word)
  | pinned (key : Word) (token : Word)
deriving DecidableEq, Repr

/-! ### Notices (Chapter 6) -/

/-- What happened to a claim (R108). -/
inductive NoticeKind where
  | granted
  | lapsed
  | revoked
  | withdrawn
deriving DecidableEq, Repr

/-- Why a wait ended (R108). -/
inductive Reason where
  | none
  | waitExpired
  | revoked
  | storeFault
  | tokensSpent
deriving DecidableEq, Repr

/-- A notice record (R108). -/
structure Notice where
  seq : Byte
  kind : NoticeKind
  key : Word
  slot : SlotIx
  token : Word
  reason : Reason
  tick : Word
deriving DecidableEq, Repr

/-! ### The token unit (Chapter 3) -/

/-- The states of the token unit (R53). -/
inductive TokenState where
  | normal
  | advancing
  | storeFault
  | tokensSpent
deriving DecidableEq, Repr

/-- The two reserve rows (R66), and the two configuration copies (R161), are called A and B. -/
inductive Side where
  | a
  | b
deriving DecidableEq, Repr

/-- The token unit (R53); the boot floor is the value of F at the end of start-up selection (R68). -/
structure TokenUnit where
  G : Word
  F : Word
  state : TokenState
  active : Option Side
  demand : Bool
  bootFloor : Word
deriving DecidableEq, Repr

/-! ### The gate unit (Chapter 4) -/

/-- The state of a gate channel (R72, R73); the guard deadline is present in GUARD alone. -/
inductive ChannelState where
  | unbound
  | idle
  | high
  | heldLow
  | guard (deadline : Word)
deriving DecidableEq, Repr

/-- A gate channel (R72) with the level of GINH it has last taken (R77): true is asserted. -/
structure GateChannel where
  key : Word
  guard : Half
  state : ChannelState
  ginh : Bool
deriving DecidableEq, Repr

/-! ### The store (Chapter 9) -/

/-- The rows the engine programs: rows 1 to 6; row 0 is never a target (R156). -/
inductive ProgRow where
  | reserve (side : Side)
  | copyOne (side : Side)
  | copyTwo (side : Side)
deriving DecidableEq, Repr

/-- The two requesters (R157). -/
inductive Requester where
  | tokenUnit
  | configUnit
deriving DecidableEq, Repr

/-- A row request (R157). -/
structure RowRequest where
  row : ProgRow
  bytes : Row
  requester : Requester
deriving DecidableEq, Repr

/-- The phases of a programming cycle (R157). -/
inductive Phase where
  | erase
  | write
  | verify
deriving DecidableEq, Repr

/-- Attempt 1 or 2 (R157). -/
inductive Attempt where
  | first
  | second
deriving DecidableEq, Repr

/-- The programming engine (R157). -/
inductive Engine where
  | idle
  | busy (req : RowRequest) (attempt : Attempt) (phase : Phase)
deriving DecidableEq, Repr

/-- The store controller: seven rows, the engine and its two inputs (R156 to R158). -/
structure Store where
  rows : Vector Row 7
  engine : Engine
  advanceInput : Option RowRequest
  commitInput : Option RowRequest
deriving DecidableEq, Repr

/-! ### The configuration unit (Chapter 9) -/

/-- The four rights of a port (R100). -/
structure Rights where
  acquire : Bool
  inspect : Bool
  revoke : Bool
  configure : Bool
deriving DecidableEq, Repr

/-- The settings of one port (R161). -/
structure PortSettings where
  rights : Rights
  classMask : Half
  maxLease : Half
  maxWait : Half
deriving DecidableEq, Repr

/-- The settings of one gate channel (R161). -/
structure ChannelSettings where
  key : Word
  guard : Half
deriving DecidableEq, Repr

/-- A configuration image without its sequence (R161). -/
structure Image where
  frozen : Bool
  ports : Vector PortSettings 4
  chans : Vector ChannelSettings 4
deriving DecidableEq, Repr

/-- The staging states (R165). -/
inductive StagingState where
  | idle
  | opened
  | commitPending
  | programming
deriving DecidableEq, Repr

/-- The outcome of the last commit that reached its end (R165). -/
inductive LastResult where
  | none
  | done
  | failed
  | refused
deriving DecidableEq, Repr

/-- The commit target: a copy with the new sequence, which may be 65536 (R171). -/
structure CommitTarget where
  copy : Side
  seq : Nat
deriving DecidableEq, Repr

/-- The configuration unit (R163, R165); a copy record is the sequence of a valid copy. -/
structure ConfigUnit where
  effective : Image
  defaulted : Bool
  staging : StagingState
  owner : Option Port
  image : Option Image
  target : Option CommitTarget
  lastResult : LastResult
  effectiveSeq : Half
  storedSeq : Half
  storeFrozen : Bool
  recordA : Option Half
  recordB : Option Half
deriving DecidableEq, Repr

/-! ### Start-up, supply and the factory row (Chapter 10) -/

/-- The device states (R180). -/
inductive DeviceState where
  | inReset
  | boot
  | ready
deriving DecidableEq, Repr

/-- The causes of a device reset (R181). -/
inductive ResetCause where
  | powerOn
  | brownout
  | pin
  | restart
deriving DecidableEq, Repr

/-- Where the supply stands (R188): below the power-on level; above it and held in reset until the
release level; released, until it falls below the brownout threshold. -/
inductive SupplyRegion where
  | off
  | held
  | released
deriving DecidableEq, Repr

/-- The supply monitor (R181, R187, R188); below the power-on level its recorded cause is cleared. -/
structure SupplyMonitor where
  region : SupplyRegion
  low : Bool
  cause : Option ResetCause
deriving DecidableEq, Repr

/-- The RESTART hold (R190): not running, running, or with its tick come and its end not yet taken. -/
inductive RestartHold where
  | none
  | holding
  | due
deriving DecidableEq, Repr

/-- What BOOT step 1 keeps of a valid factory row: identity and oscillator trim (R183). -/
structure Factory where
  vendor : Half
  part : Half
  revision : Byte
  serial : Word
  trim : Half
deriving DecidableEq, Repr

/-! ### Replies (00 section 7, Chapter 8, 11.2) -/

/-- The reply status codes (00 section 7). -/
inductive Status where
  | ok
  | queued
  | busy
  | noToken
  | notHeld
  | badToken
  | alreadyHeld
  | alreadyWaiting
  | notWaiting
  | slotsExhausted
  | tableFull
  | noRight
  | classDenied
  | badParam
  | detached
  | notAttached
  | storeFault
  | tokensSpent
  | noNotice
  | badSeq
  | noRecord
  | endOfTable
  | stageOwned
  | notOwner
  | notOpen
  | frozen
  | badImage
  | unknownCommand
  | notReady
  | valid
  | stale
  | future
deriving DecidableEq, Repr

/-- The staging items (R168). -/
inductive Item where
  | rights
  | classMask
  | maxLease
  | maxWait
  | gateKey
  | guard
  | frozen
deriving DecidableEq, Repr

/-- One holding as LOOKUP and LIST report it (R125, R126). -/
structure HolderView where
  port : Port
  mode : Mode
  remaining : Word
  token : Word
deriving DecidableEq, Repr

/-- One waiter entry as LOOKUP and LIST report it (R125). -/
structure WaiterView where
  port : Port
  mode : Mode
  state : WaiterState
deriving DecidableEq, Repr

/-- A record as LOOKUP and LIST report it (R125). -/
structure RecordView where
  key : Word
  index : RecIx
  mode : Option Mode
  holders : List HolderView
  waiters : List WaiterView
  channel : Option (Channel × ChannelState)
deriving DecidableEq, Repr

/-- The fields of STATUS (R131); the device state is always READY. -/
structure StatusView where
  token : TokenState
  G : Word
  F : Word
  records : Nat
  chans : Vector ChannelState 4
  supplyLow : Bool
  trimDefault : Bool
  defaulted : Bool
  configPending : Bool
  cause : Option ResetCause
  staging : StagingState
deriving DecidableEq, Repr

/-- The fields of STAGE_STATUS (R176). -/
structure StagingView where
  staging : StagingState
  owner : Option Port
  target : Option CommitTarget
  lastResult : LastResult
  effectiveSeq : Half
  storedSeq : Half
  storeFrozen : Bool
deriving DecidableEq, Repr

/-- The fields of a reply (11.2, Reply fields). -/
inductive Fields where
  | none
  | session (number : Half) (bootFloor : Word)
  | grant (token deadline : Word) (slot : SlotIx)
  | slot (slot : SlotIx)
  | deadline (deadline : Word)
  | holder (port : Port) (mode : Mode)
  | notice (n : Notice) (count : Nat)
  | remaining (count : Nat) (slot : Slot)
  | record (v : RecordView)
  | mySlot (slot : Slot) (count : Nat)
  | now (now : Word)
  | status (v : StatusView)
  | ident (f : Option Factory)
  | removed (count : Nat)
  | target (t : CommitTarget)
  | badItem (item : Item) (index : Nat)
  | field (item : Byte) (index : Byte) (value : Word)
  | staging (v : StagingView)
deriving DecidableEq, Repr

/-- A reply as the slot holds it (R148). -/
structure Reply where
  tag : BitVec 4
  code : Byte
  status : Status
  replayed : Bool
  fields : Fields
deriving DecidableEq, Repr

/-- The reply slot (R148). A pending slot holds the port's accepted command (R147), whose code is the
command code of the slot. -/
inductive ReplySlot where
  | empty
  | pending (tag : BitVec 4) (cmd : Instr)
  | filled (r : Reply)
deriving DecidableEq, Repr

/-- The SPI mode of a transaction (R137). -/
inductive SpiMode where
  | mode0
  | mode3
deriving DecidableEq, Repr

/-- What the kind byte of a transaction names (R138). -/
inductive TransferKind where
  | send
  | fetch
  | poll
  | unrecognised
deriving DecidableEq, Repr

/-- The levels of a port's input pins (R136); true is high. -/
structure LinkPins where
  csn : Bool
  sck : Bool
  sdi : Bool
deriving DecidableEq, Repr

/-- A transaction in progress (R137, R138): its mode; its kind, once the kind byte is complete; the SDI
bits of the byte that is being clocked in; the bits that wait to be shifted out on SDO. -/
structure Transfer where
  mode : SpiMode
  kind : Option TransferKind
  bitsIn : List Bool
  bitsOut : List Bool
deriving DecidableEq, Repr

/-- A host port unit (00 section 3.1, R88, R110, R112, R136, R151). The flags BOOTING, ATTACHED,
EXECUTING, REPLY_READY and NOTICES of the status byte are read from the state they name (Flags). -/
structure PortUnit where
  pins : LinkPins
  /-- The transaction in progress. With CSn low and none in progress the port ignores the clocks up to
  the rise of CSn (R138). -/
  transfer : Option Transfer
  /-- The level driven on SDO; none while it is high-impedance (R136). -/
  sdo : Option Bool
  /-- The bits that SDO has shown at the rising edges of SCK since the last fall of CSn, oldest first:
  what the host has sampled. The model's own record (log 31). -/
  sampled : List Bool
  rx : List Byte
  slot : ReplySlot
  lastTag : Option (BitVec 4)
  frameError : Bool
  overrun : Bool
  sessionLost : Bool
  attached : Bool
  session : Half
  notices : List Notice
  seq : Byte
deriving DecidableEq, Repr

/-! ### The whole part -/

/-- The state of the part. `pending` is the queue of rows waiting to be taken and `free` the counter
of the free values (log 19): both are the model's own. -/
structure State where
  device : DeviceState
  hold : RestartHold
  /-- The tick in which a RESTART began a reset is still running, so that another reset cause of that
  tick is a condition that begins during IN_RESET (R181, R190, log 32). -/
  restartTick : Bool
  now : Word
  table : Vector (Option Record) 24
  slots : Vector (Vector Slot 8) 4
  served : Port
  sessionCounter : Half
  /-- The report of availability in progress: the index its next pass looks from (R16, log 18). -/
  availSweep : Option Nat
  /-- The fault report in progress: the index its next withdrawal looks from (R63, log 18). -/
  faultSweep : Option Nat
  ports : Vector PortUnit 4
  tok : TokenUnit
  chans : Vector GateChannel 4
  ginhPin : Bool
  store : Store
  cfg : ConfigUnit
  supply : SupplyMonitor
  rstLow : Bool
  factory : Option Factory
  pending : List Instr
  free : Nat
deriving DecidableEq, Repr

/-- Why the part stops: nothing of the manual stops it. Every event of the manual, STORE_FAULT and
TOKENS_SPENT among them, leads to a next state. -/
inductive Fault where
deriving DecidableEq, Repr

/-- Why a row has no meaning in the model. -/
inductive Refusal where
  /-- Raised by exec alone, for a row without a meaning; safe. No row of this model is left so. -/
  | notModelled (mnemonic : String)
deriving DecidableEq, Repr

/-! ### After reset -/

/-- The factory default configuration (R164). -/
def Image.factoryDefault : Image where
  frozen := false
  ports := Vector.replicate 4 ⟨⟨true, true, true, true⟩, 0xFFFF#16, 60000#16, 60000#16⟩
  chans := Vector.replicate 4 ⟨0#32, 0#16⟩

/-- The link inputs of an idle bus: CSn high, SCK and SDI low (log 12). -/
def LinkPins.idle : LinkPins := ⟨true, false, false⟩

/-- A host port unit after a device reset, on an idle bus (R88, R136, R154); receive buffer: log 12. -/
def PortUnit.reset : PortUnit where
  pins := LinkPins.idle
  transfer := none
  sdo := none
  sampled := []
  rx := []
  slot := .empty
  lastTag := none
  frameError := false
  overrun := false
  sessionLost := true
  attached := false
  session := 0#16
  notices := []
  seq := 0#8

/-- The configuration unit after a device reset of a part whose copies are both blank (R163, R165). -/
def ConfigUnit.reset : ConfigUnit where
  effective := Image.factoryDefault
  defaulted := false
  staging := .idle
  owner := none
  image := none
  target := none
  lastResult := .none
  effectiveSeq := 0#16
  storedSeq := 0#16
  storeFrozen := false
  recordA := none
  recordB := none

/-- The store of the part as shipped: rows 1 to 6 blank (R68, R163), and a factory row whose fields
are 0 (DESIGN CHOICE, log 6). -/
def Store.shipped : Store where
  rows := (Vector.replicate 7 blankRow).set 0 (rowOf [])
  engine := .idle
  advanceInput := none
  commitInput := none

/-- The part as shipped, on its first POWER_ON, as it enters BOOT with steps 1 to 4 of BOOT taken
(log 1). Its first row is BOOT_END. -/
def State.reset : State where
  device := .boot
  hold := .none
  restartTick := false
  now := 0#32
  table := Vector.replicate 24 none
  slots := Vector.replicate 4 (Vector.replicate 8 .free)
  served := 3
  sessionCounter := 0#16
  availSweep := none
  faultSweep := none
  ports := Vector.replicate 4 PortUnit.reset
  tok := ⟨1#32, 1#32, .advancing, none, false, 1#32⟩
  chans := Vector.replicate 4 ⟨0#32, 0#16, .unbound, true⟩
  ginhPin := true
  store := Store.shipped
  cfg := ConfigUnit.reset
  supply := ⟨.released, true, some .powerOn⟩
  rstLow := false
  factory := some ⟨0#16, 0#16, 0#8, 0#32, 0#16⟩
  pending := []
  free := 0

end Sys2Proof.Machine
end

