-- ==== Sys2Proof/Machine/Flags.lean ====
section
/-! DEFINITION. The flags of the port status byte (R151, 11.2) and the output lines: ATTNn (R118), the
gate lines (R73), the STATUS flags (R131, R193). Each is read from the state it names. -/

namespace Sys2Proof.Machine

/-- EXECUTING: the slot is pending (R148). -/
def PortUnit.executing (u : PortUnit) : Bool :=
  match u.slot with
  | .pending _ _ => true
  | .empty => false
  | .filled _ => false

/-- REPLY_READY: the slot is filled (R148). -/
def PortUnit.replyReady (u : PortUnit) : Bool :=
  match u.slot with
  | .filled _ => true
  | .empty => false
  | .pending _ _ => false

/-- NOTICES: the queue is not empty (R119). -/
def PortUnit.noticesFlag (u : PortUnit) : Bool := !u.notices.isEmpty

/-- ATTNn is driven low while the port is ATTACHED and its queue is not empty (R118). -/
def PortUnit.attnLow (u : PortUnit) : Bool := u.attached && !u.notices.isEmpty

/-- The port status byte (R151); bit positions from 11.2. -/
def statusByte (device : DeviceState) (u : PortUnit) : Byte :=
  BitVec.ofBool u.sessionLost ++ BitVec.ofBool u.overrun ++ BitVec.ofBool u.frameError ++
    BitVec.ofBool u.noticesFlag ++ BitVec.ofBool u.replyReady ++ BitVec.ofBool u.executing ++
    BitVec.ofBool u.attached ++ BitVec.ofBool (device == .boot)

/-- A gate line is driven high in HIGH and low in every other state (R73). -/
def GateChannel.lineHigh (c : GateChannel) : Bool := c.state == .high

/-- TRIM_DEFAULT: the factory row was not valid at BOOT (R183). -/
def State.trimDefault (s : State) : Bool := s.factory.isNone

/-- Configuration pending (R177). -/
def ConfigUnit.pendingChange (c : ConfigUnit) : Bool := c.storedSeq != c.effectiveSeq

/-- A reset condition holds: supply below the release level, or RST taken as low (R180). A supply that has been
above the release level counts as below it only once it falls below the brownout threshold, which is the
model's choice (log 35). -/
def State.resetCondition (s : State) : Bool := s.supply.region != .released || s.rstLow

end Sys2Proof.Machine
end

