-- ==== Sys2Proof/Machine/Operands.lean ====
section
/-! DEFINITION. Parameter forms: modes, key classes, ranges, REVOKE targets and staging items
(R1, R2, R19, R28, R37, R168, the codes of 11.2). -/

namespace Sys2Proof.Machine

/-- The mode of a mode code; none for a code that is neither EXCLUSIVE nor SHARED (R2, 11.2). -/
def modeOfCode (b : Byte) : Option Mode :=
  match b with
  | 1#8 => some .exclusive
  | 2#8 => some .shared
  | _ => none

/-- The class of a key: its top four bits (R1). -/
def keyClass (key : Word) : Nat := (key >>> 28).toNat

/-- Whether a class mask admits the class of a key (R1, R101). -/
def classAllowed (mask : Half) (key : Word) : Bool := mask.getLsbD (keyClass key)

/-- A lease is 10 to the port's max lease (R19, R37, R101). -/
def leaseInRange (set : PortSettings) (lease : Half) : Bool :=
  decide (10#16 ≤ lease) && decide (lease ≤ set.maxLease)

/-- A wait is 0 to the port's max wait (R19, R101). -/
def waitInRange (set : PortSettings) (wait : Half) : Bool := decide (wait ≤ set.maxWait)

/-- A port number given as a byte (R28, R97). -/
def portOfCode (b : Byte) : Option Port := if h : b.toNat < 4 then some ⟨b.toNat, h⟩ else none

/-- The target of REVOKE: one port, or every port (R28). -/
inductive Target where
  | port (p : Port)
  | all
deriving DecidableEq, Repr

/-- The target a byte names; FFh is ALL (11.2). -/
def targetOfCode (b : Byte) : Option Target :=
  if b = 0xFF#8 then some .all else (portOfCode b).map .port

/-- Whether a target includes a port (R28, R29). -/
def Target.includes (t : Target) (p : Port) : Bool :=
  match t with
  | .port q => q == p
  | .all => true

/-- The staging item of a code (11.2). -/
def itemOfCode (b : Byte) : Option Item :=
  match b with
  | 1#8 => some .rights
  | 2#8 => some .classMask
  | 3#8 => some .maxLease
  | 4#8 => some .maxWait
  | 5#8 => some .gateKey
  | 6#8 => some .guard
  | 7#8 => some .frozen
  | _ => none

/-- The rights of a rights value: bit 0 ACQUIRE, 1 INSPECT, 2 REVOKE, 3 CONFIGURE (11.2). -/
def rightsOfBits (b : BitVec 4) : Rights :=
  ⟨b.getLsbD 0, b.getLsbD 1, b.getLsbD 2, b.getLsbD 3⟩

/-- The rights value of rights (11.2). -/
def Rights.bits (r : Rights) : BitVec 4 :=
  BitVec.ofBool r.configure ++ BitVec.ofBool r.revoke ++ BitVec.ofBool r.inspect ++
    BitVec.ofBool r.acquire

/-- The settings of one port of an image. -/
def Image.port (img : Image) (p : Port) : PortSettings := img.ports[p]

/-- The settings of one channel of an image. -/
def Image.chan (img : Image) (ch : Channel) : ChannelSettings := img.chans[ch]

/-- An image with the settings of one port replaced. -/
def Image.setPort (img : Image) (p : Port) (set : PortSettings) : Image :=
  { img with ports := img.ports.set p set }

/-- An image with the settings of one channel replaced. -/
def Image.setChan (img : Image) (ch : Channel) (set : ChannelSettings) : Image :=
  { img with chans := img.chans.set ch set }

/-- STAGE_SET on one field: none where the index or the value is outside the item's range (R168). -/
def Image.setField (img : Image) (item : Item) (index : Byte) (value : Word) : Option Image :=
  match item with
  | .frozen =>
    if index = 0#8 ∧ value.toNat ≤ 1 then some { img with frozen := value == 1#32 } else none
  | .rights =>
    match portOfCode index with
    | some p =>
      if value.toNat ≤ 15 then
        some (img.setPort p { img.port p with rights := rightsOfBits (value.extractLsb' 0 4) })
      else none
    | none => none
  | .classMask =>
    match portOfCode index with
    | some p =>
      if value.toNat ≤ 0xFFFF then
        some (img.setPort p { img.port p with classMask := value.extractLsb' 0 16 })
      else none
    | none => none
  | .maxLease =>
    match portOfCode index with
    | some p =>
      if value.toNat ≤ 60000 then
        some (img.setPort p { img.port p with maxLease := value.extractLsb' 0 16 })
      else none
    | none => none
  | .maxWait =>
    match portOfCode index with
    | some p =>
      if value.toNat ≤ 60000 then
        some (img.setPort p { img.port p with maxWait := value.extractLsb' 0 16 })
      else none
    | none => none
  | .gateKey =>
    match portOfCode index with
    | some ch => some (img.setChan ch { img.chan ch with key := value })
    | none => none
  | .guard =>
    match portOfCode index with
    | some ch =>
      if value.toNat ≤ 10000 then
        some (img.setChan ch { img.chan ch with guard := value.extractLsb' 0 16 })
      else none
    | none => none

/-- STAGE_READ of one field: none where the index is outside the item's range (R169). -/
def Image.readField (img : Image) (item : Item) (index : Byte) : Option Word :=
  match item with
  | .frozen => if index = 0#8 then some (if img.frozen then 1#32 else 0#32) else none
  | .rights => (portOfCode index).map fun p => (img.port p).rights.bits.setWidth 32
  | .classMask => (portOfCode index).map fun p => (img.port p).classMask.setWidth 32
  | .maxLease => (portOfCode index).map fun p => (img.port p).maxLease.setWidth 32
  | .maxWait => (portOfCode index).map fun p => (img.port p).maxWait.setWidth 32
  | .gateKey => (portOfCode index).map fun ch => (img.chan ch).key
  | .guard => (portOfCode index).map fun ch => (img.chan ch).guard.setWidth 32

end Sys2Proof.Machine
end

