-- ==== Sys2Proof/Machine/Ops.lean ====
section
/-! DEFINITION. The named operations over the registers of State: reads and writes of one port unit,
slot, record, channel; the searches of the claim table; posting and counting notices; settings. -/

namespace Sys2Proof.Machine

/-! ### One port unit -/

def State.port (s : State) (p : Port) : PortUnit := s.ports[p]

def State.setPort (s : State) (p : Port) (u : PortUnit) : State := { s with ports := s.ports.set p u }

def State.modPort (s : State) (p : Port) (f : PortUnit → PortUnit) : State := s.setPort p (f (s.port p))

/-! ### One slot -/

def State.slot (s : State) (p : Port) (i : SlotIx) : Slot := s.slots[p][i]

def State.setSlot (s : State) (p : Port) (i : SlotIx) (sl : Slot) : State :=
  { s with slots := s.slots.set p (s.slots[p].set i sl) }

/-- All eight slots of a port FREE (R94). -/
def State.freeSlots (s : State) (p : Port) : State :=
  { s with slots := s.slots.set p (Vector.replicate 8 .free) }

/-- The lowest-numbered FREE slot of a port (R10, R105). -/
def State.lowestFreeSlot (s : State) (p : Port) : Option SlotIx :=
  (List.finRange 8).find? fun i => s.slot p i == .free

/-! ### One record -/

def State.record (s : State) (i : RecIx) : Option Record := s.table[i]

def State.setRecord (s : State) (i : RecIx) (r : Option Record) : State :=
  { s with table := s.table.set i r }

/-- The index of the record of a key, found by exact match (R3). -/
def State.findRecord (s : State) (key : Word) : Option RecIx :=
  (List.finRange 24).find? fun i => (s.record i).any fun r => r.key == key

/-- The lowest free index of the claim table (R8). -/
def State.lowestFreeIndex (s : State) : Option RecIx :=
  (List.finRange 24).find? fun i => (s.record i).isNone

/-- The number of occupied indices (R131). -/
def State.recordsInUse (s : State) : Nat := (List.finRange 24).countP fun i => (s.record i).isSome

/-- The holding of a port on a record. -/
def Record.holder (r : Record) (p : Port) : Option Holding := r.holders[p]

def Record.setHolder (r : Record) (p : Port) (h : Option Holding) : Record :=
  { r with holders := r.holders.set p h }

/-- The waiter entry of a port on a record. -/
def Record.waiter (r : Record) (p : Port) : Option Waiter := r.waiters.find? fun w => w.port == p

/-- The record without the waiter entry of a port; the others keep their order (R25). -/
def Record.dropWaiter (r : Record) (p : Port) : Record :=
  { r with waiters := r.waiters.filter fun w => w.port != p }

/-- Whether the head of the queue is the entry of a port. -/
def Record.headIs (r : Record) (p : Port) : Bool := r.waiters.head?.any fun w => w.port == p

/-- A record without an entry: a key alone, as a creation starts from (R8). -/
def Record.fresh (key : Word) : Record := ⟨key, Vector.replicate 4 none, []⟩

/-- No holding stands. -/
def Record.noHolder (r : Record) : Bool := (List.finRange 4).all fun p => (r.holder p).isNone

/-- No EXCLUSIVE holding stands. -/
def Record.noExclusive (r : Record) : Bool :=
  (List.finRange 4).all fun p => !(r.holder p).any fun h => h.mode == .exclusive

/-- Neither holding nor waiter (R9). -/
def Record.isEmpty (r : Record) : Bool := r.noHolder && r.waiters.isEmpty

/-- The record's mode, derived from its holders (R3). -/
def Record.mode (r : Record) : Option Mode :=
  if r.noHolder then none else if r.noExclusive then some .shared else some .exclusive

/-- Retirement of the record at an index if it has neither holding nor waiter (R9). -/
def State.retire (s : State) (i : RecIx) : State :=
  if (s.record i).any Record.isEmpty then s.setRecord i none else s

/-! ### One gate channel -/

def State.chan (s : State) (ch : Channel) : GateChannel := s.chans[ch]

def State.setChan (s : State) (ch : Channel) (c : GateChannel) : State :=
  { s with chans := s.chans.set ch c }

/-- The channel a key is bound to, from the effective configuration (R6). -/
def State.boundChannel (s : State) (key : Word) : Option Channel :=
  (List.finRange 4).find? fun ch => key != 0#32 && (s.cfg.effective.chan ch).key == key

/-! ### Settings, notices -/

/-- The rights, class mask and limits of a port in force (R100, R101). -/
def State.settings (s : State) (p : Port) : PortSettings := s.cfg.effective.port p

/-- Posting a notice: it takes the counter's value as its seq and joins the queue at the tail; the
counter advances (R110, R112); its tick is now (R34). -/
def State.postNotice (s : State) (p : Port) (kind : NoticeKind) (key : Word) (slot : SlotIx)
    (token : Word) (reason : Reason) : State :=
  s.modPort p fun u =>
    { u with notices := u.notices ++ [⟨u.seq, kind, key, slot, token, reason, s.now⟩]
             seq := u.seq + 1#8 }

/-- The number of unacknowledged notices of a port that name a slot (R103). -/
def State.noticesNaming (s : State) (p : Port) (i : SlotIx) : Nat :=
  (s.port p).notices.countP fun n => n.slot == i

/-- The next value of the model's counter of free values (log 19). -/
def State.drawFree (s : State) : Nat × State := (s.free, { s with free := s.free + 1 })

end Sys2Proof.Machine
end

