-- ==== Sys2Proof/Machine/Rows.lean ====
section
/-! DEFINITION. The store rows (R156, 11.3): the layouts as written, the fields as read, the classes of
reserve rows (R66) and of configuration rows and copies (R162), and the start-up selections (R68,
R163). -/

namespace Sys2Proof.Machine

/-! ### Reading a row -/

/-- A 16-bit field at an offset of a row. -/
def rowHalf (r : Row) (at_ : Nat) : Half :=
  let b := r.toList
  half (b.getD at_ 0#8) (b.getD (at_ + 1) 0#8)

/-- A 32-bit field at an offset of a row. -/
def rowWord (r : Row) (at_ : Nat) : Word :=
  let b := r.toList
  word (b.getD at_ 0#8) (b.getD (at_ + 1) 0#8) (b.getD (at_ + 2) 0#8) (b.getD (at_ + 3) 0#8)

/-- A byte at an offset of a row. -/
def rowByte (r : Row) (at_ : Nat) : Byte := r.toList.getD at_ 0#8

/-- The stored CRC-16 equals the CRC-16 over the first 30 bytes (R192). -/
def rowCrcMatches (r : Row) : Bool := crc16 (r.toList.take 30) == rowHalf r 30

/-! ### Reserve rows -/

/-- The row an advance writes: floor, inverted floor, fill, CRC (R66, R194). -/
def reserveRow (floor : Word) : Row := rowOf (wordBytes floor ++ wordBytes (~~~floor))

/-- The classes of a reserve row (R66). -/
inductive ReserveClass where
  | blank
  | valid (floor : Word)
  | corrupt
deriving DecidableEq, Repr

/-- The class of a reserve row; the blank test comes first (R66, R192). -/
def reserveClass (r : Row) : ReserveClass :=
  if r = blankRow then .blank
  else if rowCrcMatches r && rowWord r 4 == ~~~rowWord r 0 && rowWord r 0 != 0#32 then
    .valid (rowWord r 0)
  else .corrupt

/-- F and the active row from the classes of rows A and B; none where both are corrupt (R68). -/
def selectFloor (a b : ReserveClass) : Option (Word × Option Side) :=
  match a, b with
  | .valid fa, .valid fb => some (if fa < fb then (fb, some .b) else (fa, some .a))
  | .valid fa, .blank => some (fa, some .a)
  | .valid fa, .corrupt => some (fa, some .a)
  | .blank, .valid fb => some (fb, some .b)
  | .corrupt, .valid fb => some (fb, some .b)
  | .blank, .blank => some (1#32, none)
  | .blank, .corrupt => some (1#32, none)
  | .corrupt, .blank => some (1#32, none)
  | .corrupt, .corrupt => none

/-- The token unit at the end of start-up selection (R68, R184). -/
def selectTokens (a b : ReserveClass) : TokenUnit :=
  match selectFloor a b with
  | none => ⟨0#32, 0#32, .storeFault, none, false, 0#32⟩
  | some (floor, active) =>
    ⟨floor, floor, if floor = maxWord then .tokensSpent else .advancing, active, false, floor⟩

/-- The target row of an advance (R67); row A where the table of R67 names no row (log 23). -/
def advanceTarget (active : Option Side) (a b : ReserveClass) : Side :=
  match active with
  | some .a => .b
  | some .b => .a
  | none =>
    match a, b with
    | .blank, .corrupt => .b
    | _, _ => .a

/-! ### Configuration rows -/

/-- Two ports' rights in one byte, the first in bits 7 to 4 (11.3). -/
def rightsByte (r q : Rights) : Byte := r.bits ++ q.bits

def portBytes (p : PortSettings) : List Byte :=
  halfBytes p.classMask ++ halfBytes p.maxLease ++ halfBytes p.maxWait

def channelBytes (c : ChannelSettings) : List Byte := wordBytes c.key ++ halfBytes c.guard

/-- Row one of a copy: sequence, frozen flag, the ports' settings (11.3). -/
def copyRowOne (seq : Half) (img : Image) : Row :=
  rowOf (halfBytes seq ++ [if img.frozen then 1#8 else 0#8,
      rightsByte (img.port 0).rights (img.port 1).rights,
      rightsByte (img.port 2).rights (img.port 3).rights] ++
    portBytes (img.port 0) ++ portBytes (img.port 1) ++ portBytes (img.port 2) ++
    portBytes (img.port 3))

/-- Row two of a copy: sequence, the channels' settings (11.3). -/
def copyRowTwo (seq : Half) (img : Image) : Row :=
  rowOf (halfBytes seq ++ channelBytes (img.chan 0) ++ channelBytes (img.chan 1) ++
    channelBytes (img.chan 2) ++ channelBytes (img.chan 3))

/-- The classes of a configuration row (R162). -/
inductive ConfigRowClass where
  | blank
  | intact
  | damaged
deriving DecidableEq, Repr

/-- The class of a configuration row (R162). -/
def configRowClass (r : Row) : ConfigRowClass :=
  if r = blankRow then .blank else if rowCrcMatches r then .intact else .damaged

/-- One port's settings from row one; its six bytes begin at 5, 11, 17, 23 (11.3). -/
def readPort (one : Row) (rights : BitVec 4) (at_ : Nat) : PortSettings :=
  ⟨rightsOfBits rights, rowHalf one at_, rowHalf one (at_ + 2), rowHalf one (at_ + 4)⟩

/-- One channel's settings from row two; its six bytes begin at 2, 8, 14, 20 (11.3). -/
def readChannel (two : Row) (at_ : Nat) : ChannelSettings := ⟨rowWord two at_, rowHalf two (at_ + 4)⟩

/-- The image two rows hold (11.3). -/
def readImage (one two : Row) : Image where
  frozen := rowByte one 2 == 1#8
  ports := #v[readPort one ((rowByte one 3).extractLsb' 4 4) 5,
    readPort one ((rowByte one 3).extractLsb' 0 4) 11,
    readPort one ((rowByte one 4).extractLsb' 4 4) 17,
    readPort one ((rowByte one 4).extractLsb' 0 4) 23]
  chans := #v[readChannel two 2, readChannel two 8, readChannel two 14, readChannel two 20]

/-- The pairs of channels, the lowest-numbered first (R170, log 15). -/
def channelPairs : List (Channel × Channel) := [(0, 1), (0, 2), (0, 3), (1, 2), (1, 3), (2, 3)]

/-- The first pair of channels with the same non-zero bound key (R162, R170). -/
def Image.sharedKey (img : Image) : Option (Channel × Channel) :=
  channelPairs.find? fun c => (img.chan c.1).key != 0#32 && (img.chan c.1).key == (img.chan c.2).key

/-- The lowest-numbered port whose max lease is below 10 (R170). -/
def Image.shortLease (img : Image) : Option Port :=
  (List.finRange 4).find? fun p => decide ((img.port p).maxLease < 10#16)

/-- At least one port keeps the CONFIGURE right, or the frozen flag is set (R162, R170). -/
def Image.changeable (img : Image) : Bool :=
  img.frozen || (List.finRange 4).any fun p => (img.port p).rights.configure

/-- Every field lies in the range of R161. -/
def Image.inRange (img : Image) : Bool :=
  ((List.finRange 4).all fun p =>
      decide (10#16 ≤ (img.port p).maxLease) && decide ((img.port p).maxLease ≤ 60000#16) &&
        decide ((img.port p).maxWait ≤ 60000#16)) &&
    (List.finRange 4).all fun ch => decide ((img.chan ch).guard ≤ 10000#16)

/-- The classes of a configuration copy (R162). -/
inductive CopyClass where
  | blank
  | valid (seq : Half) (img : Image)
  | corrupt
deriving DecidableEq, Repr

/-- The class of a copy from its two rows (R162); a frozen byte other than 00h or 01h is out of range
(R194). -/
def copyClass (one two : Row) : CopyClass :=
  match configRowClass one, configRowClass two with
  | .blank, .blank => .blank
  | .intact, .intact =>
    let img := readImage one two
    if rowHalf two 0 == rowHalf one 0 && rowHalf one 0 != 0#16 && decide (rowByte one 2 ≤ 1#8) &&
        img.inRange && img.sharedKey.isNone && img.changeable then
      .valid (rowHalf one 0) img
    else .corrupt
  | _, _ => .corrupt

/-- The sequence of a copy that is valid (R165). -/
def CopyClass.seq? (c : CopyClass) : Option Half :=
  match c with
  | .valid q _ => some q
  | .blank => none
  | .corrupt => none

/-- Whether a copy is valid with its frozen flag set (R163). -/
def CopyClass.isFrozen (c : CopyClass) : Bool :=
  match c with
  | .valid _ img => img.frozen
  | .blank => false
  | .corrupt => false

/-- The effective configuration with its sequence and CONFIG_DEFAULTED (R163, R164). -/
def selectImage (a b : CopyClass) : Image × Half × Bool :=
  match a, b with
  | .valid qa ia, .valid qb ib => if qa < qb then (ib, qb, false) else (ia, qa, false)
  | .valid qa ia, .blank => (ia, qa, false)
  | .valid qa ia, .corrupt => (ia, qa, false)
  | .blank, .valid qb ib => (ib, qb, false)
  | .corrupt, .valid qb ib => (ib, qb, false)
  | .blank, .blank => (Image.factoryDefault, 0#16, false)
  | .blank, .corrupt => (Image.factoryDefault, 0#16, true)
  | .corrupt, .blank => (Image.factoryDefault, 0#16, true)
  | .corrupt, .corrupt => (Image.factoryDefault, 0#16, true)

/-- The configuration unit at the end of start-up selection (R163, R165, R184). -/
def selectConfig (a b : CopyClass) : ConfigUnit :=
  let (img, seq, defaulted) := selectImage a b
  { ConfigUnit.reset with
    effective := img
    defaulted := defaulted
    effectiveSeq := seq
    storedSeq := seq
    storeFrozen := a.isFrozen || b.isFrozen
    recordA := a.seq?
    recordB := b.seq? }

/-! ### The factory row -/

/-- What BOOT step 1 keeps of row 0: nothing where it is blank or fails its CRC (R183, 11.3). -/
def readFactory (r : Row) : Option Factory :=
  if r ≠ blankRow ∧ rowCrcMatches r then
    some ⟨rowHalf r 0, rowHalf r 2, rowByte r 4, rowWord r 5, rowHalf r 9⟩
  else none

/-! ### Rows by name -/

/-- The store row a programming request names (R156). -/
def ProgRow.index (r : ProgRow) : Fin 7 :=
  match r with
  | .reserve .a => 1
  | .reserve .b => 2
  | .copyOne .a => 3
  | .copyTwo .a => 4
  | .copyOne .b => 5
  | .copyTwo .b => 6

def Store.row (st : Store) (r : ProgRow) : Row := st.rows[r.index]

def Store.setRow (st : Store) (r : ProgRow) (v : Row) : Store :=
  { st with rows := st.rows.set r.index v }

/-- Row 0 (R156). -/
def Store.factoryRow (st : Store) : Row := st.rows[(0 : Fin 7)]

/-- A row content that reads as corrupt: a reserve row that is neither blank nor valid (R66), a
configuration row that is damaged (R162). -/
def ProgRow.readsCorrupt (r : ProgRow) (v : Row) : Bool :=
  match r with
  | .reserve _ => reserveClass v == .corrupt
  | .copyOne _ => configRowClass v == .damaged
  | .copyTwo _ => configRowClass v == .damaged

/-- A free corrupt content (R59, R160, logs 8 and 9): every corrupt content is a value of it. -/
def ProgRow.corruptRow (r : ProgRow) (n : Nat) : Row :=
  if r.readsCorrupt (Config.corruptContent n) then Config.corruptContent n
  else Vector.replicate 32 0#8

/-- A row that failed its verification: blank, or corrupt (R59, log 9). For a failed second row of a commit R175
says 'an old row two', where R157 has had that row erased and written: the model keeps to R157, which is its
choice (log 34). -/
def ProgRow.failedRow (r : ProgRow) (n : Nat) : Row :=
  if Config.failedRowBlank n then blankRow else r.corruptRow n

/-- A row whose programming a device reset stopped, by the phase it stopped (R160, log 8). -/
def ProgRow.tornRow (r : ProgRow) (phase : Phase) (content : Row) (n : Nat) : Row :=
  match phase with
  | .erase =>
    match Config.eraseTear n with
    | .oldContent => content
    | .blank => blankRow
    | .corrupt => r.corruptRow n
  | .write => if Config.writeTearBlank n then blankRow else r.corruptRow n
  | .verify => content

end Sys2Proof.Machine
end

