-- ==== Sys2Proof/Machine/StoreOps.lean ====
section
/-! DEFINITION. The store controller (R157 to R159, R172, R173) and the token unit's draws, advances
and reports (R54 to R63): the shared operations that requests, grants and row ends run through. -/

namespace Sys2Proof.Machine

/-! ### The programming engine and its inputs -/

/-- The engine starts attempt 1 of a request with its erase (R157). -/
def Store.start (st : Store) (req : RowRequest) : Store := { st with engine := .busy req .first .erase }

/-- Whether a row is the first row of a commit (R171, R173). -/
def ProgRow.isFirstOfCommit (r : ProgRow) : Bool :=
  match r with
  | .copyOne _ => true
  | .copyTwo _ => false
  | .reserve _ => false

/-- The new sequence of the commit is greater than 65535 (R172). -/
def ConfigUnit.sequenceSpent (c : ConfigUnit) : Bool := c.target.any fun t => decide (65535 < t.seq)

/-- Staging returns to STAGE_IDLE with a last result: image, owner and target are dropped (R172, R174,
R175). -/
def ConfigUnit.endCommit (c : ConfigUnit) (result : LastResult) : ConfigUnit :=
  { c with staging := .idle, owner := none, image := none, target := none, lastResult := result }

/-- A waiting commit row is about to start: the first row of a commit whose sequence is spent is
refused (R172); otherwise it starts, the first row moving staging to PROGRAMMING (R173). -/
def State.startCommitRow (s : State) (req : RowRequest) : State :=
  let st := { s.store with commitInput := none }
  if req.row.isFirstOfCommit then
    if s.cfg.sequenceSpent then { s with store := st, cfg := s.cfg.endCommit .refused }
    else { s with store := st.start req, cfg := { s.cfg with staging := .programming } }
  else { s with store := st.start req }

/-- The engine starts a waiting request when it is IDLE and supply-low is clear, the advance first
(R158, R159). -/
def State.kickEngine (s : State) : State :=
  match s.store.engine with
  | .busy _ _ _ => s
  | .idle =>
    if s.supply.low then s
    else
      match s.store.advanceInput with
      | some req => { s with store := { s.store with advanceInput := none }.start req }
      | none =>
        match s.store.commitInput with
        | some req => s.startCommitRow req
        | none => s

/-! ### The token unit -/

/-- Admission condition 4 (R11, R55): G is less than F in NORMAL or ADVANCING. -/
def TokenUnit.available (t : TokenUnit) : Bool :=
  decide (t.G < t.F) && (t.state == .normal || t.state == .advancing)

/-- The new floor F' of an advance (R56). -/
def nextFloor (F : Word) : Word := if maxWord - F < 256#32 then maxWord else F + 256#32

/-- F − G is 32 or less, and F is less than 4294967295 (R56). -/
def TokenUnit.lowWater (t : TokenUnit) : Bool := decide (t.F - t.G ≤ 32#32) && t.F != maxWord

/-- The row request of an advance: F' into the target row (R56, R67). -/
def State.advanceRequest (s : State) : RowRequest where
  row := .reserve (advanceTarget s.tok.active (reserveClass (s.store.row (.reserve .a)))
    (reserveClass (s.store.row (.reserve .b))))
  bytes := reserveRow (nextFloor s.tok.F)
  requester := .tokenUnit

/-- A reserve advance is requested: the state becomes ADVANCING, the request goes to its input and
starts there if the engine can start it (R56, R158). -/
def State.requestAdvance (s : State) : State :=
  State.kickEngine
    { s with tok := { s.tok with state := .advancing }
             store := { s.store with advanceInput := some s.advanceRequest } }

/-- The low-water test after a draw or a completion (R56). -/
def State.lowWaterTest (s : State) : State :=
  if s.tok.state = .normal ∧ s.tok.lowWater then s.requestAdvance else s

/-- The low-water test at the last step of BOOT, where ADVANCING stands for NORMAL (R56, R185). -/
def State.bootLowWaterTest (s : State) : State :=
  if s.tok.state = .advancing ∧ s.tok.lowWater then s.requestAdvance else s

/-- A report of the fault state to the claim engine, which withdraws from index 0 on (R63). -/
def State.reportFault (s : State) : State := { s with faultSweep := some 0 }

/-- A draw (R54): the token is the value of G, and G advances by 1. A draw that makes G equal to F at
4294967295 enters TOKENS_SPENT (R62); otherwise the low-water condition is tested (R56). -/
def State.drawToken (s : State) : State :=
  let tok := { s.tok with G := s.tok.G + 1#32 }
  if tok.G = tok.F ∧ tok.F = maxWord then
    { s with tok := { tok with state := .tokensSpent } }.reportFault
  else { s with tok := tok }.lowWaterTest

/-- A test of condition 4 that holds a grant back because G equals F in ADVANCING sets the demand flag
(R55, log 13). -/
def State.noteDemand (s : State) : State :=
  if s.tok.G = s.tok.F ∧ s.tok.state = .advancing then
    { s with tok := { s.tok with demand := true } }
  else s

/-- The completion of an advance into a reserve row (R58): F and the active row, NORMAL, the report of
availability if the demand flag is set, the low-water test. F' is the floor of the row written. -/
def State.completeAdvance (s : State) (side : Side) (bytes : Row) : State :=
  State.lowWaterTest
    { s with
      tok := { s.tok with F := rowWord bytes 0, active := some side, state := .normal, demand := false }
      availSweep := if s.tok.demand then some 0 else s.availSweep }

/-- The failure of an advance (R59, R61): STORE_FAULT, reported to the claim engine. -/
def State.failAdvance (s : State) : State :=
  { s with tok := { s.tok with state := .storeFault } }.reportFault

end Sys2Proof.Machine
end

