-- ==== Sys2Proof/Machine/Engine.lean ====
section
/-! DEFINITION. The claim engine's shared procedures: reports to the gate unit (R74, R75), admission
(R11), the grant pass (R12 to R14), the end of a holding (R24), the departure of a waiter (R25),
teardown (R94 to R96), and taking an accepted command to its reply (R17, R89, R147). -/

namespace Sys2Proof.Machine

/-! ### Reports to the gate unit -/

/-- A start report on a channel in IDLE: HIGH, or HELD_LOW while GINH is asserted (R74). -/
def GateChannel.startReport (c : GateChannel) : GateChannel :=
  match c.state with
  | .idle => { c with state := if c.ginh then .heldLow else .high }
  | .unbound => c
  | .high => c
  | .heldLow => c
  | .guard _ => c

/-- An end report on a channel in HIGH or HELD_LOW: GUARD from now, or IDLE with a guard of 0 (R75). -/
def GateChannel.endReport (c : GateChannel) (now : Word) : GateChannel :=
  let next := if c.guard = 0#16 then ChannelState.idle else .guard (now + c.guard.setWidth 32)
  match c.state with
  | .high => { c with state := next }
  | .heldLow => { c with state := next }
  | .unbound => c
  | .idle => c
  | .guard _ => c

/-- The start of a holding of a key: reported if it is EXCLUSIVE and the key is bound (R30). -/
def State.reportStart (s : State) (key : Word) (mode : Mode) : State :=
  match mode, s.boundChannel key with
  | .exclusive, some ch => s.setChan ch (s.chan ch).startReport
  | _, _ => s

/-- The end of a holding of a key: reported if it was EXCLUSIVE and the key is bound (R30). -/
def State.reportEnd (s : State) (key : Word) (mode : Mode) : State :=
  match mode, s.boundChannel key with
  | .exclusive, some ch => s.setChan ch ((s.chan ch).endReport s.now)
  | _, _ => s

/-! ### Admission -/

/-- Condition 2: the mode is compatible with the record's holdings (R11). -/
def Record.compatible (r : Record) (mode : Mode) : Bool :=
  match mode with
  | .exclusive => r.noHolder
  | .shared => r.noExclusive

/-- Condition 3: for EXCLUSIVE on a bound key, the channel is in IDLE (R11). -/
def State.gateOpen (s : State) (key : Word) (mode : Mode) : Bool :=
  match mode, s.boundChannel key with
  | .exclusive, some ch => (s.chan ch).state == .idle
  | _, _ => true

/-- Conditions 2, 3 and 4 for a request on a record that stands first (R11). -/
def State.admissible (s : State) (r : Record) (mode : Mode) : Bool :=
  r.compatible mode && s.gateOpen r.key mode && s.tok.available

/-! ### The grant pass -/

/-- A holding is added to a record: holding, slot and start report share mode, token and deadline
(R12, R21). The token is the G of the state before the draw. -/
def State.addHolding (s : State) (i : RecIx) (r : Record) (p : Port) (mode : Mode) (lease : Half)
    (slot : SlotIx) : State :=
  let token := s.tok.G
  let deadline := s.now + lease.setWidth 32
  let s1 := s.drawToken
  let s2 := s1.setRecord i (some (r.setHolder p (some ⟨mode, token, deadline, slot⟩)))
  s2.setSlot p slot (.holding r.key mode token deadline)

/-- The grant of a head waiter (R12): out of the queue, draw, holding, slot, GRANTED notice, start
report. -/
def State.grantHead (s : State) (i : RecIx) (r : Record) (w : Waiter) (rest : List Waiter) : State :=
  let s1 := s.addHolding i { r with waiters := rest } w.port w.mode w.lease w.slot
  let s2 := s1.postNotice w.port .granted r.key w.slot s.tok.G .none
  s2.reportStart r.key w.mode

/-- The head at which a pass stops (R14): blocked only by the gate or tokens it is RESERVED, its slot
with it, and a QUEUED deadline is thereby suspended; blocked by condition 2 it stays as it is. -/
def State.markReserved (s : State) (i : RecIx) (r : Record) (w : Waiter) (rest : List Waiter) : State :=
  if r.compatible w.mode then
    let s1 := s.noteDemand
    match w.state with
    | .reserved => s1
    | .queued =>
      let s2 := s1.setRecord i (some { r with waiters := { w with state := .reserved } :: rest })
      s2.setSlot w.port w.slot (.reserved r.key w.mode w.deadline w.lease)
  else s

/-- The heads a pass grants, one after another (R13); the count bounds the heads it looks at. -/
def State.grantHeads : Nat → State → RecIx → State
  | 0, s, _ => s
  | n + 1, s, i =>
    match s.record i with
    | none => s
    | some r =>
      match r.waiters with
      | [] => s
      | w :: rest =>
        if s.admissible r w.mode then State.grantHeads n (s.grantHead i r w rest) i
        else s.markReserved i r w rest

/-- The number of waiters of the record at an index. -/
def State.waiterCount (s : State) (i : RecIx) : Nat :=
  match s.record i with
  | some r => r.waiters.length
  | none => 0

/-- A grant pass on the record at an index, with the retirement that follows it (R9, R13). -/
def State.grantPass (s : State) (i : RecIx) : State :=
  (State.grantHeads (s.waiterCount i) s i).retire i

/-- What follows removals from a record: one pass if one of them brings it (R15), and the retirement. -/
def State.passOrRetire (s : State) (i : RecIx) (passed : Bool) : State :=
  if passed then s.grantPass i else s.retire i

/-! ### The end of a holding, the departure of a waiter -/

/-- The slot of an ended holding: PINNED while a notice names it, otherwise FREE (R10, R24). -/
def State.settleEnded (s : State) (p : Port) (slot : SlotIx) (key token : Word) : State :=
  s.setSlot p slot (if s.noticesNaming p slot = 0 then .free else .pinned key token)

/-- Steps 1 to 4 of a holding's end (R24): removal, the notice of the cause if it has one, the slot,
the end report. The pass and the retirement follow. -/
def State.endHolding (s : State) (i : RecIx) (r : Record) (p : Port) (h : Holding)
    (cause : Option NoticeKind) : State :=
  let s1 := s.setRecord i (some (r.setHolder p none))
  let s2 := match cause with
    | some kind => s1.postNotice p kind r.key h.slot h.token .none
    | none => s1
  (s2.settleEnded p h.slot r.key h.token).reportEnd r.key h.mode

/-- Steps 1 to 3 of a waiter's departure (R25): out of the queue, the WITHDRAWN notice of the cause if
it has one, the slot PINNED with it and FREE otherwise. -/
def State.dropWaiter (s : State) (i : RecIx) (r : Record) (w : Waiter) (cause : Option Reason) : State :=
  let s1 := s.setRecord i (some (r.dropWaiter w.port))
  match cause with
  | some reason =>
    (s1.postNotice w.port .withdrawn r.key w.slot 0#32 reason).setSlot w.port w.slot
      (.pinned r.key 0#32)
  | none => s1.setSlot w.port w.slot .free

/-- The departure of one waiter with what follows it (R25): a pass if it was the head, retirement. -/
def State.departWaiter (s : State) (i : RecIx) (r : Record) (w : Waiter) (cause : Option Reason) :
    State :=
  (s.dropWaiter i r w cause).passOrRetire i (r.headIs w.port)

/-! ### Teardown -/

/-- Step 1 of teardown on one index: the port's holding leaves, without notice (R94). -/
def State.tearHolding (p : Port) (s : State) (i : RecIx) : State :=
  match s.record i with
  | none => s
  | some r =>
    match r.holder p with
    | none => s
    | some h => (s.setRecord i (some (r.setHolder p none))).reportEnd r.key h.mode

/-- Step 2 of teardown on one index: the port's entry leaves, without notice (R94). -/
def State.tearWaiter (p : Port) (s : State) (i : RecIx) : State :=
  match s.record i with
  | none => s
  | some r => s.setRecord i (some (r.dropWaiter p))

/-- Step 5 of teardown: an open image of the port is discarded (R96). -/
def ConfigUnit.tearStaging (c : ConfigUnit) (p : Port) : ConfigUnit :=
  if c.staging = .opened ∧ c.owner = some p then
    { c with staging := .idle, owner := none, image := none }
  else c

/-- Whether the removal of a port's claim is followed by a pass on the record: a holding ends, or the
head of the queue leaves (R15, R95). -/
def Record.passedOnLoss (r : Record) (p : Port) : Bool := (r.holder p).isSome || r.headIs p

/-- The pass, or the bare retirement, of one index after a teardown (R95). -/
def State.passAfterTeardown (before : State) (p : Port) (s : State) (i : RecIx) : State :=
  s.passOrRetire i ((before.record i).any fun r => r.passedOnLoss p)

/-- Steps 1 to 5 of teardown (R94, R96). -/
def State.tearDownSteps (s : State) (p : Port) : State :=
  let s1 := (List.finRange 24).foldl (State.tearHolding p) s
  let s2 := (List.finRange 24).foldl (State.tearWaiter p) s1
  let s3 := (s2.modPort p fun u => { u with notices := [] }).freeSlots p
  { s3 with cfg := s3.cfg.tearStaging p }

/-- The teardown of a port (R94, R95): the five steps, then the passes in increasing index order. -/
def State.tearDown (s : State) (p : Port) : State :=
  (List.finRange 24).foldl (State.passAfterTeardown s p) (s.tearDownSteps p)

/-- The session state of a port after its session ends (R88, R93, R98). -/
def PortUnit.detach (u : PortUnit) : PortUnit := { u with attached := false, session := 0#16 }

/-! ### Taking an accepted command -/

/-- What the execution of a command yields: the state, and the reply's status and fields. -/
structure Answer where
  st : State
  status : Status
  fields : Fields
deriving DecidableEq, Repr

/-- A reply without fields and without effect. -/
def State.answer (s : State) (status : Status) : Answer := ⟨s, status, .none⟩

/-- The session check (R89): a DETACHED port is answered DETACHED before any other check. -/
def State.whenAttached (s : State) (p : Port) (body : State → Answer) : Answer :=
  if (s.port p).attached then body s else s.answer .detached

/-- The port the arbiter takes next, in rotating order after the port served last (R17). -/
def State.arbiterChoice (s : State) : Option Port :=
  [s.served + 1, s.served + 2, s.served + 3, s.served].find? fun p => (s.port p).executing

/-- Commands are taken in READY, and not during the RESTART hold (R180, R190). -/
def State.takesCommands (s : State) : Bool := s.device == .ready && s.hold == .none

/-- The tag of the frame of the command that port `p` has had accepted and that the engine takes now:
`cmd`, from the port the arbiter chooses (R17, R147, log 3). -/
def State.takenTag (s : State) (p : Port) (cmd : Instr) : Option (BitVec 4) :=
  match (s.port p).slot with
  | .pending tag c =>
    if s.takesCommands ∧ s.arbiterChoice = some p ∧ c = cmd then some tag else none
  | .empty => none
  | .filled _ => none

/-- The reply is placed: REPLY_READY set, EXECUTING cleared (R147). -/
def State.placeReply (s : State) (p : Port) (tag : BitVec 4) (cmd : Instr) (status : Status)
    (fields : Fields) : State :=
  s.modPort p fun u => { u with slot := .filled ⟨tag, codeOf cmd, status, false, fields⟩ }

/-- The execution of a command: the engine takes it, serving its port, executes it whole and places
its reply (R17, R147). A command row that the engine does not take now changes nothing (log 3). -/
def State.runCommand (s : State) (p : Port) (cmd : Instr) (body : State → Answer) :
    Host.Outcome State Fault Refusal :=
  match s.takenTag p cmd with
  | some tag =>
    let a := body { s with served := p }
    .next (a.st.placeReply p tag cmd a.status a.fields)
  | none => .next s

end Sys2Proof.Machine
end

