-- ==== Sys2Proof/Machine/Claims.lean ====
section
/-! DEFINITION. The claim commands: ACQUIRE, RELEASE, CANCEL, REVOKE (Chapter 1), RENEW (Chapter 2),
VERIFY (Chapter 3). -/

namespace Sys2Proof.Machine

/-! ### ACQUIRE -/

/-- Checks 1 to 3: right, parameters, class (R19). -/
def acquireParams (set : PortSettings) (key : Word) (mode : Byte) (lease wait : Half) :
    Except Status Mode :=
  if !set.rights.acquire then .error .noRight
  else
    match modeOfCode mode with
    | none => .error .badParam
    | some m =>
      if key = 0#32 ∨ !leaseInRange set lease ∨ !waitInRange set wait then .error .badParam
      else if !classAllowed set.classMask key then .error .classDenied
      else .ok m

/-- Where an ACQUIRE that passes its checks stands: the index and record it uses, a fresh record if
none exists for the key (R8), and the slot it takes (R10). -/
structure Place where
  index : RecIx
  record : Record
  slot : SlotIx
deriving DecidableEq, Repr

/-- The index and record of a key: its own, or the lowest free index with a fresh record (R8). -/
def State.placeOf (s : State) (key : Word) : Option (RecIx × Record) :=
  match s.findRecord key with
  | some i => (s.record i).map fun r => (i, r)
  | none => s.lowestFreeIndex.map fun i => (i, Record.fresh key)

/-- The refusal of check 4 (R20). -/
def State.duplicate (s : State) (p : Port) (key : Word) : Option Status :=
  match (s.findRecord key).bind s.record with
  | none => none
  | some r =>
    if (r.holder p).isSome then some .alreadyHeld
    else if (r.waiter p).isSome then some .alreadyWaiting
    else none

/-- Checks 4 to 7 (R20). -/
def State.acquirePlace (s : State) (p : Port) (key : Word) : Except Status Place :=
  match s.duplicate p key with
  | some st => .error st
  | none =>
    match s.lowestFreeSlot p with
    | none => .error .slotsExhausted
    | some slot =>
      match s.placeOf key with
      | none => .error .tableFull
      | some (i, r) =>
        match s.tok.state with
        | .storeFault => .error .storeFault
        | .tokensSpent => .error .tokensSpent
        | .normal | .advancing => .ok ⟨i, r, slot⟩

/-- Granted at once (R21). -/
def State.grantAtOnce (s : State) (p : Port) (pl : Place) (mode : Mode) (lease : Half) : Answer :=
  let s1 := s.addHolding pl.index pl.record p mode lease pl.slot
  ⟨s1.reportStart pl.record.key mode, .ok,
    .grant s.tok.G (s.now + lease.setWidth 32) pl.slot⟩

/-- Refused for want of a wait (R22): NO_TOKEN where condition 4 alone fails, BUSY otherwise. -/
def State.refuseUnqueued (s : State) (pl : Place) (mode : Mode) : Answer :=
  if pl.record.waiters.isEmpty && pl.record.compatible mode && s.gateOpen pl.record.key mode then
    s.noteDemand.answer .noToken
  else s.answer .busy

/-- Queued (R23): RESERVED on an empty queue where only the gate or tokens block, QUEUED otherwise. -/
def State.enqueue (s : State) (p : Port) (pl : Place) (mode : Mode) (lease wait : Half) : Answer :=
  let key := pl.record.key
  let deadline := s.now + wait.setWidth 32
  let reserved := pl.record.waiters.isEmpty && pl.record.compatible mode
  let entry : Waiter :=
    ⟨p, mode, lease, deadline, if reserved then .reserved else .queued, pl.slot⟩
  let s1 := if reserved then s.noteDemand else s
  let s2 := s1.setRecord pl.index
    (some { pl.record with waiters := pl.record.waiters ++ [entry] })
  ⟨s2.setSlot p pl.slot
      (if reserved then .reserved key mode deadline lease else .waiting key mode deadline lease),
    .queued, .slot pl.slot⟩

/-- The body of ACQUIRE (R19 to R23). -/
def acquireBody (p : Port) (key : Word) (mode : Byte) (lease wait : Half) (s : State) : Answer :=
  match acquireParams (s.settings p) key mode lease wait with
  | .error st => s.answer st
  | .ok m =>
    match s.acquirePlace p key with
    | .error st => s.answer st
    | .ok pl =>
      if pl.record.waiters.isEmpty && s.admissible pl.record m then s.grantAtOnce p pl m lease
      else if wait = 0#16 then s.refuseUnqueued pl m
      else s.enqueue p pl m lease wait

/-- ACQUIRE (R19 to R23). -/
def execAcquire (p : Port) (key : Word) (mode : Byte) (lease wait : Half) (s : State) :
    Host.Outcome State Fault Refusal :=
  s.runCommand p (.acquire p key mode lease wait) fun s =>
    s.whenAttached p (acquireBody p key mode lease wait)

/-! ### Commands on a claim the port has -/

/-- The record of a key with its index. -/
def State.lookRecord (s : State) (key : Word) : Option (RecIx × Record) :=
  match s.findRecord key with
  | some i => (s.record i).map fun r => (i, r)
  | none => none

/-- The holding of a port on a key, with its record and index. -/
def State.holdingOf (s : State) (p : Port) (key : Word) : Option (RecIx × Record × Holding) :=
  match s.lookRecord key with
  | some (i, r) => (r.holder p).map fun h => (i, r, h)
  | none => none

/-- The waiter entry of a port on a key, with its record and index. -/
def State.waitingOf (s : State) (p : Port) (key : Word) : Option (RecIx × Record × Waiter) :=
  match s.lookRecord key with
  | some (i, r) => (r.waiter p).map fun w => (i, r, w)
  | none => none

/-- The body of RELEASE (R26): a token of 0 always differs, since no holding carries it. -/
def releaseBody (p : Port) (key token : Word) (s : State) : Answer :=
  match s.holdingOf p key with
  | none => s.answer .notHeld
  | some (i, r, h) =>
    if token = 0#32 ∨ token ≠ h.token then s.answer .badToken
    else ⟨(s.endHolding i r p h none).grantPass i, .ok, .none⟩

/-- RELEASE (R26). -/
def execRelease (p : Port) (key token : Word) (s : State) : Host.Outcome State Fault Refusal :=
  s.runCommand p (.release p key token) fun s => s.whenAttached p (releaseBody p key token)

/-- The body of CANCEL (R27). -/
def cancelBody (p : Port) (key : Word) (s : State) : Answer :=
  match s.waitingOf p key with
  | none => s.answer .notWaiting
  | some (i, r, w) => ⟨s.departWaiter i r w none, .ok, .none⟩

/-- CANCEL (R27). -/
def execCancel (p : Port) (key : Word) (s : State) : Host.Outcome State Fault Refusal :=
  s.runCommand p (.cancel p key) fun s => s.whenAttached p (cancelBody p key)

/-- The lease deadline of a holding and of its slot moves (R38). -/
def State.moveLease (s : State) (i : RecIx) (r : Record) (p : Port) (h : Holding) (deadline : Word) :
    State :=
  (s.setRecord i (some (r.setHolder p (some { h with deadline := deadline })))).setSlot p h.slot
    (.holding r.key h.mode h.token deadline)

/-- The body of RENEW (R37, R38). -/
def renewBody (p : Port) (key token : Word) (lease : Half) (s : State) : Answer :=
  if !leaseInRange (s.settings p) lease then s.answer .badParam
  else
    match s.holdingOf p key with
    | none => s.answer .notHeld
    | some (i, r, h) =>
      if token = 0#32 ∨ token ≠ h.token then s.answer .badToken
      else
        let deadline := s.now + lease.setWidth 32
        ⟨s.moveLease i r p h deadline, .ok, .deadline deadline⟩

/-- RENEW (R37, R38). -/
def execRenew (p : Port) (key token : Word) (lease : Half) (s : State) :
    Host.Outcome State Fault Refusal :=
  s.runCommand p (.renew p key token lease) fun s => s.whenAttached p (renewBody p key token lease)

/-! ### VERIFY -/

/-- The port whose holding on a record carries a token (R70). -/
def Record.holderOfToken (r : Record) (token : Word) : Option (Port × Holding) :=
  (List.finRange 4).findSome? fun p =>
    match r.holder p with
    | some h => if h.token = token then some (p, h) else none
    | none => none

/-- The body of VERIFY (R70): VALID, FUTURE or STALE; no state changes. -/
def verifyBody (key token : Word) (s : State) : Answer :=
  if key = 0#32 ∨ token = 0#32 then s.answer .badParam
  else
    match (s.lookRecord key).bind fun x => x.2.holderOfToken token with
    | some (q, h) => ⟨s, .valid, .holder q h.mode⟩
    | none => if s.tok.G ≤ token then s.answer .future else s.answer .stale

/-- VERIFY (R70). -/
def execVerify (p : Port) (key token : Word) (s : State) : Host.Outcome State Fault Refusal :=
  s.runCommand p (.verify p key token) fun s => s.whenAttached p (verifyBody key token)

/-! ### REVOKE -/

/-- Whether a record has a holding or a waiter of a port. -/
def Record.hasClaim (r : Record) (p : Port) : Bool := (r.holder p).isSome || (r.waiter p).isSome

/-- One port's claim on the record at an index is revoked: its holding with a REVOKED notice, or its
entry with a WITHDRAWN notice, reason REVOKED (R29). -/
def State.revokeClaim (i : RecIx) (s : State) (p : Port) : State :=
  match s.record i with
  | none => s
  | some r =>
    match r.holder p with
    | some h => s.endHolding i r p h (some .revoked)
    | none =>
      match r.waiter p with
      | some w => s.dropWaiter i r w (some .revoked)
      | none => s

/-- The ports whose claim on a record a target names (R29). -/
def Record.targeted (r : Record) (t : Target) : List Port :=
  (List.finRange 4).filter fun p => t.includes p && r.hasClaim p

/-- The body of REVOKE (R28, R29): the removals, then one pass and the retirement. Where R29 says that
the removals are followed by one pass, and R15 and R25 step 4 that none runs for a waiter that is not the
head, R15 is followed, which is the model's choice: a single target that waits behind the head brings no
pass (log 33). -/
def revokeBody (p : Port) (key : Word) (target : Byte) (s : State) : Answer :=
  if !(s.settings p).rights.revoke then s.answer .noRight
  else
    match targetOfCode target with
    | none => s.answer .badParam
    | some t =>
      if key = 0#32 then s.answer .badParam
      else
        match s.lookRecord key with
        | none => s.answer .notHeld
        | some (i, r) =>
          let ports := r.targeted t
          if ports.isEmpty then s.answer .notHeld
          else
            ⟨(ports.foldl (State.revokeClaim i) s).passOrRetire i (ports.any r.passedOnLoss), .ok,
              .removed ports.length⟩

/-- REVOKE (R28, R29). -/
def execRevoke (p : Port) (key : Word) (target : Byte) (s : State) :
    Host.Outcome State Fault Refusal :=
  s.runCommand p (.revoke p key target) fun s => s.whenAttached p (revokeBody p key target)

end Sys2Proof.Machine
end

