-- ==== Sys2Proof/Machine/Boot.lean ====
section
/-! DEFINITION. Device resets and BOOT (R154, R160, R179 to R186): the shared operations of the reset
causes and of the start-up sequence. -/

namespace Sys2Proof.Machine

/-! ### The start of a device reset -/

/-- The engine stops where it is: the row in progress is torn, waiting requests are discarded (R160). -/
def State.stopEngine (s : State) : State :=
  let st := { s.store with engine := .idle, advanceInput := none, commitInput := none }
  match s.store.engine with
  | .idle => { s with store := st }
  | .busy req _ phase =>
    let (n, s1) := s.drawFree
    { s1 with store := st.setRow req.row (req.row.tornRow phase (st.row req.row) n) }

/-- A port unit at the start of a device reset: the link and session state is that after a reset, the
transaction in progress is ended and SDO high-impedance; the input pins keep their levels (R136, R154). -/
def PortUnit.clear (u : PortUnit) : PortUnit := { PortUnit.reset with pins := u.pins }

/-- The volatile state of every block is discarded (R180): claims and slots (R7, R88), sessions and
link (R88, R154), notices (R120), now (R32), port served last (R17), staging (R179), the RESTART hold.
What BOOT selects afresh stands at placeholders until then (log 14). -/
def State.discardVolatile (s : State) : State :=
  { s with
    hold := .none
    now := 0#32
    table := Vector.replicate 24 none
    slots := Vector.replicate 4 (Vector.replicate 8 .free)
    served := 3
    sessionCounter := 0#16
    availSweep := none
    faultSweep := none
    ports := s.ports.map PortUnit.clear
    tok := ⟨0#32, 0#32, .advancing, none, false, 0#32⟩
    chans := Vector.replicate 4 ⟨0#32, 0#16, .unbound, s.ginhPin⟩
    cfg := ConfigUnit.reset
    factory := none }

/-- The cause that a reset cause taken out of IN_RESET leaves recorded: its own, but in the tick in which
a RESTART began a reset that of the RESTART, since it is then a condition that begins during IN_RESET
(R181, R190). -/
def State.recordedCause (s : State) (cause : ResetCause) : Option ResetCause :=
  if s.restartTick then s.supply.cause else some cause

/-- A device reset begins: IN_RESET, the cause recorded, the engine stopped, volatile state discarded
(R180, R181). In the tick of a RESTART's reset the boot that had begun is discarded with it, so that the
part boots once (R190, log 32). -/
def State.beginReset (s : State) (cause : ResetCause) : State :=
  let s1 := s.stopEngine.discardVolatile
  { s1 with device := .inReset, supply := { s1.supply with cause := s.recordedCause cause } }

/-! ### BOOT -/

/-- Step 1: the factory row (R183). -/
def State.bootFactory (s : State) : State := { s with factory := readFactory s.store.factoryRow }

/-- Step 2: the reserve rows are classed and the floor selected (R68, R184). -/
def State.bootTokens (s : State) : State :=
  let a := reserveClass (s.store.row (.reserve .a))
  let b := reserveClass (s.store.row (.reserve .b))
  { s with tok := selectTokens a b }

/-- Step 3: the configuration copies are classed and the configuration selected (R163, R184). -/
def State.bootConfig (s : State) : State :=
  let a := copyClass (s.store.row (.copyOne .a)) (s.store.row (.copyTwo .a))
  let b := copyClass (s.store.row (.copyOne .b)) (s.store.row (.copyTwo .b))
  { s with cfg := selectConfig a b }

/-- How a gate channel starts (R79): UNBOUND, in GUARD for its guard interval, or in IDLE. -/
def startChannel (set : ChannelSettings) (ginh : Bool) : GateChannel where
  key := set.key
  guard := set.guard
  state :=
    if set.key = 0#32 then .unbound
    else if set.guard = 0#16 then .idle
    else .guard (set.guard.setWidth 32)
  ginh := ginh

/-- Step 4: the gate channels start with the level of the GINH pin (R79, R185). -/
def State.bootChannels (s : State) : State :=
  { s with chans := s.cfg.effective.chans.map fun set => startChannel set s.ginhPin }

/-- SDO as the part leaves reset: high-impedance with CSn high, driven with CSn low already (R136). The port
ignores that transaction (R138), and the level driven is a free value (log 30). -/
def PortUnit.leaveReset (u : PortUnit) (n : Nat) : PortUnit :=
  if u.pins.csn then u else { u with sdo := some (Config.sdoWhileIgnored n) }

/-- Every port as the part leaves reset; each draws a free value. -/
def State.portsLeaveReset (s : State) : State :=
  { s with ports := Vector.ofFn fun p => (s.port p).leaveReset (s.free + p.val), free := s.free + 4 }

/-- The part enters BOOT, and steps 1 to 4 run to their end (R183 to R185, log 26). -/
def State.enterBoot (s : State) : State :=
  { s.portsLeaveReset with device := .boot }.bootFactory.bootTokens.bootConfig.bootChannels

/-- The part leaves IN_RESET for BOOT if no reset condition holds (R180). -/
def State.leaveReset (s : State) : State :=
  if s.device = .inReset ∧ !s.resetCondition then s.enterBoot else s

/-- Steps 5 and 6: READY, and the low-water test (R185). -/
def State.endBoot (s : State) : State :=
  { s with device := .ready, restartTick := false }.bootLowWaterTest

end Sys2Proof.Machine
end

