-- ==== Sys2Proof/Machine/Events.lean ====
section
/-! DEFINITION. The tick and the events of the claim engine and the gate unit: TICK (R32, R35), the
expiries (R39, R43), the guard deadline (R76), GINH (R77), the passes of a report of availability (R16)
and the withdrawals of a fault (R63), and the end of the RESTART hold (R190), which falls at a tick. -/

namespace Sys2Proof.Machine

/-- A deadline is reached: it equals now (R33). -/
def State.reached (s : State) (deadline : Word) : Bool := deadline == s.now

/-! ### Lease and wait expiry -/

/-- The lapse of a holding (R39). -/
def State.lapse (s : State) (i : RecIx) (r : Record) (p : Port) (h : Holding) : State :=
  (s.endHolding i r p h (some .lapsed)).grantPass i

/-- The lease expiry of a port's holding on a key; a deadline that is not reached, or no such holding,
changes nothing (R35, log 4). -/
def State.expireLease (s : State) (p : Port) (key : Word) : State :=
  match s.holdingOf p key with
  | some (i, r, h) => if s.reached h.deadline then s.lapse i r p h else s
  | none => s

/-- LEASE_EXPIRY (R39). -/
def execLeaseExpiry (p : Port) (key : Word) (s : State) : Host.Outcome State Fault Refusal :=
  .next (if s.device = .ready then s.expireLease p key else s)

/-- The wait expiry of a port's QUEUED entry on a key (R35, R43, log 4). -/
def State.expireWait (s : State) (p : Port) (key : Word) : State :=
  match s.waitingOf p key with
  | some (i, r, w) =>
    if w.state = .queued ∧ s.reached w.deadline then s.departWaiter i r w (some .waitExpired) else s
  | none => s

/-- WAIT_EXPIRY (R43). -/
def execWaitExpiry (p : Port) (key : Word) (s : State) : Host.Outcome State Fault Refusal :=
  .next (if s.device = .ready then s.expireWait p key else s)

/-! ### The gate unit -/

/-- A report of IDLE: a pass on the record of the channel's key, if one exists (R15, R76). -/
def State.reportIdle (s : State) (ch : Channel) : State :=
  match s.findRecord (s.chan ch).key with
  | some i => s.grantPass i
  | none => s

/-- The guard deadline of a channel (R76, log 4). -/
def State.expireGuard (s : State) (ch : Channel) : State :=
  match (s.chan ch).state with
  | .guard deadline =>
    if s.reached deadline then (s.setChan ch { s.chan ch with state := .idle }).reportIdle ch else s
  | .unbound => s
  | .idle => s
  | .high => s
  | .heldLow => s

/-- GUARD_DEADLINE (R76). -/
def execGuardDeadline (ch : Channel) (s : State) : Host.Outcome State Fault Refusal :=
  .next (if s.device = .ready then s.expireGuard ch else s)

/-- A change of GINH taken at a channel (R77). -/
def GateChannel.takeGinh (c : GateChannel) (level : Bool) : GateChannel :=
  match c.state with
  | .unbound => c
  | .idle => { c with ginh := level }
  | .high => { c with ginh := level, state := if level then .heldLow else .high }
  | .heldLow => { c with ginh := level, state := if level then .heldLow else .high }
  | .guard _ => { c with ginh := level }

/-- GINH_CHANGE (R77): the pin has the level; a bound channel takes the change from the step of BOOT
that starts the channels on (log 7). -/
def execGinhChange (ch : Channel) (level : Bool) (s : State) : Host.Outcome State Fault Refusal :=
  let s1 := { s with ginhPin := level }
  match s.device with
  | .inReset => .next s1
  | .boot | .ready => .next (s1.setChan ch ((s.chan ch).takeGinh level))

/-! ### The report of availability -/

/-- Whether the head of the record at an index is RESERVED (R16). -/
def State.headReserved (s : State) (i : RecIx) : Bool :=
  (s.record i).any fun r => r.waiters.head?.any fun w => w.state == .reserved

/-- The first index from a number on that has a property. -/
def firstIndexFrom (start : Nat) (f : RecIx → Bool) : Option RecIx :=
  (List.finRange 24).find? fun i => decide (start ≤ i.val) && f i

/-- RESERVED_HEAD_PASS (R16): the pass on the next record whose head is RESERVED; the report is over
when no further such record stands behind it (log 18). -/
def execReservedHeadPass (s : State) : Host.Outcome State Fault Refusal :=
  match s.device, s.availSweep with
  | .ready, some start =>
    match firstIndexFrom start s.headReserved with
    | none => .next { s with availSweep := none }
    | some i =>
      let s1 := s.grantPass i
      .next { s1 with availSweep := (firstIndexFrom (i.val + 1) s1.headReserved).map fun _ => i.val + 1 }
  | _, _ => .next s

/-! ### The report of a fault -/

/-- The reason of a withdrawal in a state of the token unit (R63). -/
def TokenState.withdrawalReason (t : TokenState) : Reason :=
  match t with
  | .tokensSpent => .tokensSpent
  | .storeFault => .storeFault
  | .normal => .storeFault
  | .advancing => .storeFault

/-- Whether the record at an index has a waiter. -/
def State.hasWaiter (s : State) (i : RecIx) : Bool := (s.record i).any fun r => !r.waiters.isEmpty

/-- The withdrawal of the oldest entry of the record at an index (R63 steps 1 to 3). -/
def State.withdrawOldest (reason : Reason) (s : State) (i : RecIx) : State :=
  match s.record i with
  | none => s
  | some r =>
    match r.waiters with
    | [] => s
    | w :: _ => s.dropWaiter i r w (some reason)

/-- The withdrawal of every waiter of one record, oldest first, then its one pass and its retirement
(R63). -/
def State.withdrawRecord (s : State) (reason : Reason) (i : RecIx) : State :=
  (Nat.repeat (fun s => State.withdrawOldest reason s i) (s.waiterCount i) s).grantPass i

/-- TOKEN_FAULT_WITHDRAWAL (R63): the next record with waiters; the report is over when no further
such record stands behind it (log 18). -/
def execTokenFaultWithdrawal (s : State) : Host.Outcome State Fault Refusal :=
  match s.device, s.faultSweep with
  | .ready, some start =>
    match firstIndexFrom start s.hasWaiter with
    | none => .next { s with faultSweep := none }
    | some i =>
      let s1 := s.withdrawRecord s.tok.state.withdrawalReason i
      .next { s1 with faultSweep := (firstIndexFrom (i.val + 1) s1.hasWaiter).map fun _ => i.val + 1 }
  | _, _ => .next s

/-! ### The RESTART hold and the tick -/

/-- The end of the RESTART hold: a device reset with cause RESTART, and BOOT in the same event unless a
reset condition holds (R180, R190). Its tick runs on, to the next TICK or the end of BOOT (log 32). -/
def State.endHold (s : State) : State :=
  let s1 := State.beginReset { s with restartTick := false } .restart
  State.leaveReset { s1 with restartTick := true }

/-- RESTART_HOLD_END (R190); with no hold running it changes nothing (log 17). -/
def execRestartHoldEnd (s : State) : Host.Outcome State Fault Refusal :=
  match s.hold with
  | .none => .next s
  | .holding | .due => .next s.endHold

/-- The events of a deadline or of the RESTART hold that are due at now (R35, R190). -/
inductive DueEvent where
  | lease (p : Port) (key : Word)
  | wait (p : Port) (key : Word)
  | guard (ch : Channel)
  | holdEnd
deriving DecidableEq, Repr

/-- The deadlines of one record that are reached at now (R35). -/
def Record.due (r : Record) (now : Word) : List DueEvent :=
  ((List.finRange 4).filterMap fun p =>
      (r.holder p).bind fun h => if h.deadline = now then some (.lease p r.key) else none) ++
    r.waiters.filterMap fun w =>
      if w.state = .queued ∧ w.deadline = now then some (.wait w.port r.key) else none

/-- The events that are due at now and not yet taken (R35, R190). -/
def State.dueEvents (s : State) : List DueEvent :=
  (s.table.toList.flatMap fun r => r.elim [] fun r => r.due s.now) ++
    (List.finRange 4).filterMap (fun ch =>
      if (s.chan ch).state = .guard s.now then some (.guard ch) else none) ++
    if s.hold = .due then [.holdEnd] else []

/-- One due event is taken. -/
def State.takeDue (s : State) (e : DueEvent) : State :=
  match e with
  | .lease p key => s.expireLease p key
  | .wait p key => s.expireWait p key
  | .guard ch => s.expireGuard ch
  | .holdEnd => s.endHold

/-- The due events of a tick are taken one after another. The part does not fix their order (R18, R40,
R43, R87): where several are due, the next is a free choice (log 5). The count bounds them; an event
taken makes no other event due, since every deadline it forms lies ahead of now (R33). -/
def State.takeAllDue : Nat → State → State
  | 0, s => s
  | n + 1, s =>
    if s.device = .ready then
      match s.dueEvents with
      | [] => s
      | [e] => s.takeDue e
      | e :: rest =>
        let (k, s1) := s.drawFree
        State.takeAllDue n
          (s1.takeDue ((e :: rest).getD (Config.dueChoice k % (rest.length + 1)) e))
    else s

/-- The tick itself: now advances by one (R32); a RESTART hold that runs has its tick (R190). -/
def State.advanceNow (s : State) : State :=
  { s with now := s.now + 1#32, hold := if s.hold = .holding then .due else s.hold }

/-- TICK (R32): the counter counts in READY alone. Before it advances, every event due at the old now
is taken, since a deadline is presented in the tick it is reached (R35, log 5). In every device state the
tick of a RESTART's reset is over (log 32). -/
def execTick (s : State) : Host.Outcome State Fault Refusal :=
  let s1 := if s.device = .ready then State.takeAllDue s.dueEvents.length s else s
  let s2 := { s1 with restartTick := false }
  .next (if s2.device = .ready then s2.advanceNow else s2)

end Sys2Proof.Machine
end

