-- ==== Sys2Proof/Machine/Replies.lean ====
section
/-! DEFINITION. Reply layouts: the codes of enumerated fields, the field bytes of every reply, the
reply frame and the frame a FETCH shifts out (R148, R149, R193, 11.2). -/

namespace Sys2Proof.Machine

/-! ### Codes (11.2) -/

def Status.code (st : Status) : Byte :=
  match st with
  | .ok => 0x00#8
  | .queued => 0x01#8
  | .busy => 0x02#8
  | .noToken => 0x03#8
  | .notHeld => 0x04#8
  | .badToken => 0x05#8
  | .alreadyHeld => 0x06#8
  | .alreadyWaiting => 0x07#8
  | .notWaiting => 0x08#8
  | .slotsExhausted => 0x09#8
  | .tableFull => 0x0A#8
  | .noRight => 0x0B#8
  | .classDenied => 0x0C#8
  | .badParam => 0x0D#8
  | .detached => 0x0E#8
  | .notAttached => 0x0F#8
  | .storeFault => 0x10#8
  | .tokensSpent => 0x11#8
  | .noNotice => 0x12#8
  | .badSeq => 0x13#8
  | .noRecord => 0x14#8
  | .endOfTable => 0x15#8
  | .stageOwned => 0x16#8
  | .notOwner => 0x17#8
  | .notOpen => 0x18#8
  | .frozen => 0x19#8
  | .badImage => 0x1A#8
  | .unknownCommand => 0x1B#8
  | .notReady => 0x1C#8
  | .valid => 0x1D#8
  | .stale => 0x1E#8
  | .future => 0x1F#8

def Mode.code (m : Mode) : Byte :=
  match m with
  | .exclusive => 1#8
  | .shared => 2#8

def Slot.code (sl : Slot) : Byte :=
  match sl with
  | .free => 0#8
  | .waiting _ _ _ _ => 1#8
  | .reserved _ _ _ _ => 2#8
  | .holding _ _ _ _ => 3#8
  | .pinned _ _ => 4#8

def WaiterState.code (w : WaiterState) : Byte :=
  match w with
  | .queued => 1#8
  | .reserved => 2#8

def ChannelState.code (c : ChannelState) : BitVec 4 :=
  match c with
  | .unbound => 0#4
  | .idle => 1#4
  | .high => 2#4
  | .heldLow => 3#4
  | .guard _ => 4#4

def TokenState.code (t : TokenState) : Byte :=
  match t with
  | .normal => 0#8
  | .advancing => 1#8
  | .storeFault => 2#8
  | .tokensSpent => 3#8

def ResetCause.code (c : ResetCause) : Byte :=
  match c with
  | .powerOn => 0#8
  | .brownout => 1#8
  | .pin => 2#8
  | .restart => 3#8

def StagingState.code (c : StagingState) : Byte :=
  match c with
  | .idle => 0#8
  | .opened => 1#8
  | .commitPending => 2#8
  | .programming => 3#8

def LastResult.code (c : LastResult) : Byte :=
  match c with
  | .none => 0#8
  | .done => 1#8
  | .failed => 2#8
  | .refused => 3#8

def Side.code (c : Side) : Byte :=
  match c with
  | .a => 0#8
  | .b => 1#8

def NoticeKind.code (k : NoticeKind) : Byte :=
  match k with
  | .granted => 1#8
  | .lapsed => 2#8
  | .revoked => 3#8
  | .withdrawn => 4#8

def Reason.code (r : Reason) : Byte :=
  match r with
  | .none => 0#8
  | .waitExpired => 1#8
  | .revoked => 2#8
  | .storeFault => 3#8
  | .tokensSpent => 4#8

def Item.code (i : Item) : Byte :=
  match i with
  | .rights => 1#8
  | .classMask => 2#8
  | .maxLease => 3#8
  | .maxWait => 4#8
  | .gateKey => 5#8
  | .guard => 6#8
  | .frozen => 7#8

/-! ### Field bytes -/

def bit (b : Bool) : Byte := if b then 1#8 else 0#8

def indexByte {n : Nat} (i : Fin n) : Byte := BitVec.ofNat 8 i.val

def countByte (n : Nat) : Byte := BitVec.ofNat 8 n

/-- A port that is absent is sent as FFh (R193). -/
def optPortByte (p : Option Port) : Byte :=
  match p with
  | some p => indexByte p
  | none => 0xFF#8

/-- The notice record of 16 bytes (11.2). -/
def Notice.bytes (n : Notice) : List Byte :=
  [n.seq, n.kind.code] ++ wordBytes n.key ++ [indexByte n.slot] ++ wordBytes n.token ++
    [n.reason.code] ++ wordBytes n.tick

/-- The channel byte of LOOKUP and LIST: number and state code, FFh for none (R193). -/
def channelByte (c : Option (Channel × ChannelState)) : Byte :=
  match c with
  | some (ch, st) => (BitVec.ofNat 4 ch.val ++ st.code : Byte)
  | none => 0xFF#8

/-- A record with its holders and waiters; the remaining lease has two bytes (11.2). -/
def RecordView.bytes (v : RecordView) : List Byte :=
  wordBytes v.key ++
    [indexByte v.index, v.mode.elim 0#8 Mode.code, countByte v.holders.length,
      countByte v.waiters.length, channelByte v.channel] ++
    v.holders.flatMap (fun h =>
      [indexByte h.port, h.mode.code] ++ halfBytes (h.remaining.extractLsb' 0 16) ++
        wordBytes h.token) ++
    v.waiters.flatMap fun w => [indexByte w.port, w.mode.code, w.state.code]

/-- MYSLOT's fields: state, key, mode, token, deadline, requested lease, notice count (R193). -/
def mySlotBytes (sl : Slot) (count : Nat) : List Byte :=
  match sl with
  | .free => [sl.code] ++ wordBytes 0#32 ++ [0#8] ++ wordBytes 0#32 ++ wordBytes 0#32 ++
      halfBytes 0#16 ++ [0#8]
  | .waiting key mode deadline lease => [sl.code] ++ wordBytes key ++ [mode.code] ++
      wordBytes 0#32 ++ wordBytes deadline ++ halfBytes lease ++ [0#8]
  | .reserved key mode deadline lease => [sl.code] ++ wordBytes key ++ [mode.code] ++
      wordBytes 0#32 ++ wordBytes deadline ++ halfBytes lease ++ [0#8]
  | .holding key mode token deadline => [sl.code] ++ wordBytes key ++ [mode.code] ++
      wordBytes token ++ wordBytes deadline ++ halfBytes 0#16 ++ [countByte count]
  | .pinned key token => [sl.code] ++ wordBytes key ++ [0#8] ++ wordBytes token ++
      wordBytes 0#32 ++ halfBytes 0#16 ++ [countByte count]

/-- The flags byte of STATUS (R193). -/
def StatusView.flags (v : StatusView) : Byte :=
  0#4 ++ BitVec.ofBool v.configPending ++ BitVec.ofBool v.defaulted ++
    BitVec.ofBool v.trimDefault ++ BitVec.ofBool v.supplyLow

/-- STATUS's fields; the device state code is 1, READY (R131, 11.2). -/
def StatusView.bytes (v : StatusView) : List Byte :=
  [1#8, v.token.code] ++ wordBytes v.G ++ wordBytes v.F ++ [countByte v.records] ++
    v.chans.toList.map (fun c => (0#4 ++ c.code : Byte)) ++
    [v.flags, v.cause.elim 0#8 ResetCause.code, v.staging.code]

/-- STAGE_STATUS's fields; a new sequence of 65536 is carried as 0 (R171, R176, 11.2). -/
def StagingView.bytes (v : StagingView) : List Byte :=
  [v.staging.code, optPortByte v.owner, v.target.elim 0xFF#8 fun t => t.copy.code] ++
    halfBytes (v.target.elim 0#16 fun t => BitVec.ofNat 16 t.seq) ++ [v.lastResult.code] ++
    halfBytes v.effectiveSeq ++ halfBytes v.storedSeq ++ [bit v.storeFrozen]

/-- IDENT's fields: source 1 FACTORY_ROW, or 0 NONE with every field 0 (R134, 11.2). -/
def identBytes (f : Option Factory) : List Byte :=
  match f with
  | some f => [1#8] ++ halfBytes f.vendor ++ halfBytes f.part ++ [f.revision] ++ wordBytes f.serial
  | none => [0#8] ++ halfBytes 0#16 ++ halfBytes 0#16 ++ [0#8] ++ wordBytes 0#32

/-- The field bytes of a reply (11.2, Reply fields). -/
def Fields.bytes (f : Fields) : List Byte :=
  match f with
  | .none => []
  | .session n floor => halfBytes n ++ wordBytes floor
  | .grant tok dl sl => wordBytes tok ++ wordBytes dl ++ [indexByte sl]
  | .slot sl => [indexByte sl]
  | .deadline dl => wordBytes dl
  | .holder p m => [indexByte p, m.code]
  | .notice n count => n.bytes ++ [countByte count]
  | .remaining count sl => [countByte count, sl.code]
  | .record v => v.bytes
  | .mySlot sl count => mySlotBytes sl count
  | .now t => wordBytes t
  | .status v => v.bytes
  | .ident f => identBytes f
  | .removed count => [countByte count]
  | .target t => [t.copy.code] ++ halfBytes (BitVec.ofNat 16 t.seq)
  | .badItem it ix => [it.code, countByte ix]
  | .field it ix value => [it, ix] ++ wordBytes value
  | .staging v => v.bytes

/-! ### Frames out of the reply slot -/

/-- The reply frame of a filled slot (R148); the flags byte carries REPLAYED in bit 0. -/
def Reply.frame (r : Reply) : List Byte :=
  frameOf r.tag r.code ([r.status.code, bit r.replayed] ++ r.fields.bytes)

/-- The frame a FETCH shifts out after the kind byte (R149). -/
def ReplySlot.fetchFrame (sl : ReplySlot) : List Byte :=
  match sl with
  | .empty => [0x00#8]
  | .pending tag cmd => frameOf tag (codeOf cmd) [Status.notReady.code, 0x00#8]
  | .filled r => r.frame

end Sys2Proof.Machine
end

