-- ==== Sys2Proof/Machine/Link.lean ====
section
/-! DEFINITION. The serial link (Chapter 8): the pins of a port, a transaction from the fall of CSn to its
rise byte by byte, and the decision of a SEND. A transaction row carries changes of the pins, each taken
as one event of its port; a transaction may stand in one row or in several (log 10). -/

namespace Sys2Proof.Machine

/-- The mode chosen from the level of SCK at the fall of CSn (R137). -/
def spiModeOf (sck : Bool) : SpiMode := if sck then .mode3 else .mode0

/-- What a kind byte names (R138, 11.2). -/
def kindOfByte (b : Byte) : TransferKind :=
  if b = kindSend then .send
  else if b = kindFetch then .fetch
  else if b = kindPoll then .poll
  else .unrecognised

/-! ### The decision of a frame -/

/-- A framing fault sets FRAME_ERROR (R143). -/
def PortUnit.frameFault (u : PortUnit) : PortUnit := { u with frameError := true }

/-- Whether a frame with a tag is a replay: the tag is not 0 and equals the last tag (R142). -/
def PortUnit.isReplay (u : PortUnit) (tag : BitVec 4) : Bool := tag != 0#4 && u.lastTag == some tag

/-- The stored reply is marked REPLAYED (R145). -/
def PortUnit.markReplayed (u : PortUnit) : PortUnit :=
  match u.slot with
  | .filled r => { u with slot := .filled { r with replayed := true } }
  | .empty => u
  | .pending _ _ => u

/-- A frame whose command code is not recognised, answered by the port unit itself (R146). -/
def PortUnit.answerUnknown (u : PortUnit) (tag : BitVec 4) (code : Byte) : PortUnit :=
  { u with lastTag := some tag, slot := .filled ⟨tag, code, .unknownCommand, false, .none⟩ }

/-- Acceptance of a command: the slot is pending with it, the last tag is the frame's (R147). -/
def PortUnit.accept (u : PortUnit) (tag : BitVec 4) (cmd : Instr) : PortUnit :=
  { u with lastTag := some tag, slot := .pending tag cmd }

/-- Steps 2 to 6 of the decision of a frame at the rise of CSn (R142). -/
def PortUnit.decide (u : PortUnit) (frame : FrameReading) : PortUnit :=
  match frame with
  | .fault => u.frameFault
  | .unknown tag code =>
    if u.executing then { u with overrun := true }
    else if u.isReplay tag then u.markReplayed
    else u.answerUnknown tag code
  | .command tag cmd =>
    if u.executing then { u with overrun := true }
    else if u.isReplay tag then u.markReplayed
    else u.accept tag cmd

/-! ### The edges of CSn -/

/-- The fall of CSn begins a transaction: its mode, and the status byte as it stands, whose first bit is
driven at once in mode 0 and at the first fall of SCK in mode 3 (R136, R137, R152). Until then SDO is
driven with a free level (log 29). -/
def PortUnit.beginTransfer (u : PortUnit) (status : Byte) (n : Nat) : PortUnit :=
  match spiModeOf u.pins.sck with
  | .mode0 =>
    { u with
      transfer := some ⟨.mode0, none, [], (bitsOfByte status).tail⟩
      sdo := (bitsOfByte status).head?
      sampled := [] }
  | .mode3 =>
    { u with
      transfer := some ⟨.mode3, none, [], bitsOfByte status⟩
      sdo := some (Config.sdoBeforeFirstBit n)
      sampled := [] }

/-- What a transaction that ends in READY does by its kind: SEND decides its frame (R142), POLL clears
FRAME_ERROR and OVERRUN (R140), an unrecognised kind byte sets FRAME_ERROR, FETCH and an incomplete kind
byte change nothing (R138, R149). -/
def PortUnit.conclude (u : PortUnit) (p : Port) (kind : Option TransferKind) : PortUnit :=
  match kind with
  | some .send => u.decide (readFrame p u.rx)
  | some .poll => { u with frameError := false, overrun := false }
  | some .unrecognised => u.frameFault
  | some .fetch => u
  | none => u

/-- The rise of CSn: SDO is high-impedance, and the transaction in progress, if there is one, is over
(R136). In BOOT it leaves nothing: a frame is discarded and no flag is set or cleared (R153). -/
def PortUnit.endTransfer (u : PortUnit) (device : DeviceState) (p : Port) : PortUnit :=
  let v := { u with transfer := none, sdo := none }
  match device, u.transfer with
  | .ready, some t => v.conclude p t.kind
  | _, _ => v

/-! ### The edges of SCK -/

/-- The bit that a fall of SCK shifts out once the bits of a transaction are out: a FETCH carries FFh
behind its frame (R149), an unrecognised transaction a free bit (R138, log 11). No other transaction runs
out of bits. -/
def Transfer.filler (t : Transfer) (n : Nat) : Bool :=
  match t.kind with
  | some .unrecognised => Config.sdoAfterUnrecognised n
  | some .fetch => true
  | some .send => true
  | some .poll => true
  | none => true

/-- A fall of SCK shifts the next bit out on SDO (R137). -/
def PortUnit.shiftOut (u : PortUnit) (t : Transfer) (n : Nat) : PortUnit :=
  match t.bitsOut with
  | b :: rest => { u with transfer := some { t with bitsOut := rest }, sdo := some b }
  | [] => { u with sdo := some (t.filler n) }

/-- What a kind byte brings SDO to shift out next: the status byte again for SEND and POLL, the frame of
the reply slot for FETCH, each as it stands at the end of the kind byte (R139, R140, R149, R152). -/
def PortUnit.bitsAfterKind (u : PortUnit) (status : Byte) (kind : TransferKind) : List Bool :=
  match kind with
  | .send => bitsOfByte status
  | .poll => bitsOfByte status
  | .fetch => bitsOfBytes u.slot.fetchFrame
  | .unrecognised => []

/-- The frame receive buffer takes a byte, up to 16 (R139). -/
def PortUnit.storeByte (u : PortUnit) (b : Byte) : PortUnit :=
  if u.rx.length < 16 then { u with rx := u.rx ++ [b] } else u

/-- A complete byte (R137): the kind byte, which begins a SEND with an empty receive buffer (R138); a byte
of a SEND's frame (R139); a byte of a POLL (R140). SEND and POLL shift the status byte out again as it
stands now (R152); FETCH keeps the frame it chose (R149). -/
def PortUnit.takeByte (u : PortUnit) (t : Transfer) (b status : Byte) : PortUnit :=
  match t.kind with
  | none =>
    let kind := kindOfByte b
    let next := { t with kind := some kind, bitsIn := [], bitsOut := u.bitsAfterKind status kind }
    { u with rx := if kind = .send then [] else u.rx, transfer := some next }
  | some .send =>
    { u.storeByte b with transfer := some { t with bitsIn := [], bitsOut := bitsOfByte status } }
  | some .poll => { u with transfer := some { t with bitsIn := [], bitsOut := bitsOfByte status } }
  | some .fetch => { u with transfer := some { t with bitsIn := [] } }
  | some .unrecognised => { u with transfer := some { t with bitsIn := [] } }

/-- A rise of SCK: the port samples SDI, the host SDO, and the eighth bit completes a byte (R137). -/
def PortUnit.sample (u : PortUnit) (t : Transfer) (status : Byte) : PortUnit :=
  let bits := t.bitsIn ++ [u.pins.sdi]
  let v := { u with sampled := u.sampled ++ u.sdo.toList }
  match bytesOfBits bits with
  | b :: _ => v.takeByte t b status
  | [] => { v with transfer := some { t with bitsIn := bits } }

/-! ### One change of a pin -/

/-- The level of the pin that a change names. -/
def LinkPins.level (pins : LinkPins) (c : PinChange) : Bool :=
  match c with
  | .csn _ => pins.csn
  | .sck _ => pins.sck
  | .sdi _ => pins.sdi

/-- The level a change brings its pin to. -/
def levelOf (c : PinChange) : Bool :=
  match c with
  | .csn b => b
  | .sck b => b
  | .sdi b => b

/-- The pins after a change. -/
def LinkPins.after (pins : LinkPins) (c : PinChange) : LinkPins :=
  match c with
  | .csn b => { pins with csn := b }
  | .sck b => { pins with sck := b }
  | .sdi b => { pins with sdi := b }

/-- A fall of SCK with no transaction in progress: nothing with CSn high (R136); with CSn low the port ignores
the transaction (R138), SDO stays driven (R136), and its level is a free value (log 30). -/
def PortUnit.ignoreFall (u : PortUnit) (n : Nat) : PortUnit :=
  if u.pins.csn then u else { u with sdo := some (Config.sdoWhileIgnored n) }

/-- What an edge of a pin does outside IN_RESET, on a unit whose pins have their new levels. -/
def PortUnit.edge (u : PortUnit) (device : DeviceState) (p : Port) (n : Nat) (c : PinChange) : PortUnit :=
  match c with
  | .csn false => u.beginTransfer (statusByte device u) n
  | .csn true => u.endTransfer device p
  | .sck false =>
    match u.transfer with
    | some t => u.shiftOut t n
    | none => u.ignoreFall n
  | .sck true =>
    match u.transfer with
    | some t => u.sample t (statusByte device u)
    | none => u
  | .sdi _ => u

/-- One change of a pin of port `p`. A level the pin has already is no edge. In IN_RESET the port takes
no transaction and SDO stays high-impedance (R136, R180). -/
def PortUnit.change (u : PortUnit) (device : DeviceState) (p : Port) (n : Nat) (c : PinChange) :
    PortUnit :=
  if u.pins.level c = levelOf c then u
  else
    let v := { u with pins := u.pins.after c }
    match device with
    | .inReset => v
    | .boot => v.edge device p n c
    | .ready => v.edge device p n c

/-- Whether a row of a kind may carry the port's next change: no transaction is in progress, its kind byte
is not complete, or it is of that kind (log 28). -/
def PortUnit.carries (u : PortUnit) (kind : TransferKind) : Bool :=
  match u.transfer with
  | some t => t.kind.all fun k => k == kind
  | none => true

/-- One change of a pin of a port, in a row of a kind; it draws a free value (log 19). -/
def State.changePin (kind : TransferKind) (p : Port) (s : State) (c : PinChange) : State :=
  let u := s.port p
  { s with free := s.free + 1 }.setPort p
    (if u.carries kind then u.change s.device p s.free c else u)

/-! ### The rows -/

/-- SEND (R139, R142): its pin changes, one after another. -/
def execSend (p : Port) (first : PinChange) (rest : List PinChange) (s : State) :
    Host.Outcome State Fault Refusal := .next ((first :: rest).foldl (State.changePin .send p) s)

/-- FETCH (R149, R153): its pin changes, one after another. -/
def execFetch (p : Port) (first : PinChange) (rest : List PinChange) (s : State) :
    Host.Outcome State Fault Refusal := .next ((first :: rest).foldl (State.changePin .fetch p) s)

/-- POLL (R140, R153): its pin changes, one after another. -/
def execPoll (p : Port) (first : PinChange) (rest : List PinChange) (s : State) :
    Host.Outcome State Fault Refusal := .next ((first :: rest).foldl (State.changePin .poll p) s)

/-- A transaction whose kind byte is none of the three (R138, R153): its pin changes, one after another. -/
def execUnrecognisedKindByte (p : Port) (first : PinChange) (rest : List PinChange) (s : State) :
    Host.Outcome State Fault Refusal :=
  .next ((first :: rest).foldl (State.changePin .unrecognised p) s)

end Sys2Proof.Machine
end

