-- ==== Sys2Proof/Machine/Notices.lean ====
section
/-! DEFINITION. Notices (Chapter 6): PEEK_NOTICE and ACK_NOTICE. -/

namespace Sys2Proof.Machine

/-- The body of PEEK_NOTICE (R113): the oldest notice and the count; no state changes. -/
def peekNoticeBody (p : Port) (s : State) : Answer :=
  match (s.port p).notices with
  | [] => s.answer .noNotice
  | n :: rest => ⟨s, .ok, .notice n (rest.length + 1)⟩

/-- PEEK_NOTICE (R113). -/
def execPeekNotice (p : Port) (s : State) : Host.Outcome State Fault Refusal :=
  s.runCommand p (.peekNotice p) fun s => s.whenAttached p (peekNoticeBody p)

/-- The slot a removed notice named is settled (R115): a PINNED slot that no notice names any more
becomes FREE; every other slot stays. -/
def State.settleAcknowledged (s : State) (p : Port) (i : SlotIx) : State :=
  match s.slot p i with
  | .pinned _ _ => if s.noticesNaming p i = 0 then s.setSlot p i .free else s
  | .free => s
  | .waiting _ _ _ _ => s
  | .reserved _ _ _ _ => s
  | .holding _ _ _ _ => s

/-- The removal of the oldest notice with the settlement of its slot (R114 check 3, R115). -/
def State.acknowledge (s : State) (p : Port) (n : Notice) (rest : List Notice) : State :=
  (s.modPort p fun u => { u with notices := rest }).settleAcknowledged p n.slot

/-- The body of ACK_NOTICE (R114). -/
def ackNoticeBody (p : Port) (seq : Byte) (s : State) : Answer :=
  match (s.port p).notices with
  | [] => s.answer .noNotice
  | n :: rest =>
    if seq ≠ n.seq then s.answer .badSeq
    else
      let s1 := s.acknowledge p n rest
      ⟨s1, .ok, .remaining rest.length (s1.slot p n.slot)⟩

/-- ACK_NOTICE (R114, R115). -/
def execAckNotice (p : Port) (seq : Byte) (s : State) : Host.Outcome State Fault Refusal :=
  s.runCommand p (.ackNotice p seq) fun s => s.whenAttached p (ackNoticeBody p seq)

end Sys2Proof.Machine
end

