-- ==== Sys2Proof/Machine/Queries.lean ====
section
/-! DEFINITION. The queries (Chapter 7): LOOKUP, LIST, TIME, STATUS, IDENT. A query changes no state
(R123). -/

namespace Sys2Proof.Machine

/-- A holding as reported: the remaining lease, and the token or 0 (R126). -/
def holderView (now : Word) (inspect : Bool) (p : Port) (h : Holding) : HolderView :=
  ⟨p, h.mode, h.deadline - now, if inspect then h.token else 0#32⟩

/-- The record at an index as reported to a port with or without INSPECT (R125, R126). -/
def State.viewRecord (s : State) (inspect : Bool) (i : RecIx) (r : Record) : RecordView where
  key := r.key
  index := i
  mode := r.mode
  holders := (List.finRange 4).filterMap fun p => (r.holder p).map (holderView s.now inspect p)
  waiters := r.waiters.map fun w => ⟨w.port, w.mode, w.state⟩
  channel := (s.boundChannel r.key).map fun ch => (ch, (s.chan ch).state)

/-- The body of LOOKUP (R124, R125). -/
def lookupBody (p : Port) (key : Word) (s : State) : Answer :=
  let set := s.settings p
  if key = 0#32 then s.answer .badParam
  else if !set.rights.inspect && !classAllowed set.classMask key then s.answer .classDenied
  else
    match s.lookRecord key with
    | none => s.answer .noRecord
    | some (i, r) => ⟨s, .ok, .record (s.viewRecord set.rights.inspect i r)⟩

/-- LOOKUP (R124 to R126). -/
def execLookup (p : Port) (key : Word) (s : State) : Host.Outcome State Fault Refusal :=
  s.runCommand p (.lookup p key) fun s => s.whenAttached p (lookupBody p key)

/-- The first index from a start index on that holds a record, with the record (R128). -/
def State.firstRecordFrom (s : State) (start : Nat) : Option (RecIx × Record) :=
  (List.finRange 24).findSome? fun i =>
    if start ≤ i.val then (s.record i).map fun r => (i, r) else none

/-- The body of LIST (R128). -/
def listBody (p : Port) (start : Byte) (s : State) : Answer :=
  if !(s.settings p).rights.inspect then s.answer .noRight
  else
    match s.firstRecordFrom start.toNat with
    | none => s.answer .endOfTable
    | some (i, r) => ⟨s, .ok, .record (s.viewRecord true i r)⟩

/-- LIST (R128). -/
def execList (p : Port) (start : Byte) (s : State) : Host.Outcome State Fault Refusal :=
  s.runCommand p (.list p start) fun s => s.whenAttached p (listBody p start)

/-- TIME (R130): for an ATTACHED or a DETACHED port. -/
def execTime (p : Port) (s : State) : Host.Outcome State Fault Refusal :=
  s.runCommand p (.time p) fun s => ⟨s, .ok, .now s.now⟩

/-- The fields of STATUS, each read from the block that owns it (R131). -/
def State.statusView (s : State) : StatusView where
  token := s.tok.state
  G := s.tok.G
  F := s.tok.F
  records := s.recordsInUse
  chans := s.chans.map fun c => c.state
  supplyLow := s.supply.low
  trimDefault := s.trimDefault
  defaulted := s.cfg.defaulted
  configPending := s.cfg.pendingChange
  cause := s.supply.cause
  staging := s.cfg.staging

/-- STATUS (R131): for an ATTACHED or a DETACHED port. -/
def execStatus (p : Port) (s : State) : Host.Outcome State Fault Refusal :=
  s.runCommand p (.status p) fun s => ⟨s, .ok, .status s.statusView⟩

/-- IDENT (R134): for an ATTACHED or a DETACHED port. -/
def execIdent (p : Port) (s : State) : Host.Outcome State Fault Refusal :=
  s.runCommand p (.ident p) fun s => ⟨s, .ok, .ident s.factory⟩

end Sys2Proof.Machine
end

