-- ==== Sys2Proof/Machine/Sessions.lean ====
section
/-! DEFINITION. Sessions (Chapter 5): HELLO, BYE, EJECT, and MYSLOT. -/

namespace Sys2Proof.Machine

/-- The session counter advances by 1, from 65535 to 1 (R91). -/
def nextSession (n : Half) : Half := if n = 65535#16 then 1#16 else n + 1#16

/-- The five steps of R90. -/
def State.attach (s : State) (p : Port) : State :=
  let number := nextSession s.sessionCounter
  { s with sessionCounter := number }.modPort p fun u =>
    { u with session := number, seq := 0#8, lastTag := none, sessionLost := false, attached := true }

/-- The body of HELLO (R90, R92): an ATTACHED port is torn down first. -/
def helloBody (p : Port) (s : State) : Answer :=
  let s1 := if (s.port p).attached then s.tearDown p else s
  let s2 := s1.attach p
  ⟨s2, .ok, .session (s2.port p).session s2.tok.bootFloor⟩

/-- HELLO (R90 to R92). -/
def execHello (p : Port) (s : State) : Host.Outcome State Fault Refusal :=
  s.runCommand p (.hello p) (helloBody p)

/-- The body of BYE (R93). -/
def byeBody (p : Port) (s : State) : Answer :=
  ⟨(s.tearDown p).modPort p PortUnit.detach, .ok, .none⟩

/-- BYE (R93). -/
def execBye (p : Port) (s : State) : Host.Outcome State Fault Refusal :=
  s.runCommand p (.bye p) fun s => s.whenAttached p (byeBody p)

/-- The body of EJECT, with its checks in order (R97, R98). -/
def ejectBody (p : Port) (target : Byte) (s : State) : Answer :=
  if !(s.settings p).rights.revoke then s.answer .noRight
  else
    match portOfCode target with
    | none => s.answer .badParam
    | some q =>
      if q = p then s.answer .badParam
      else if !(s.port q).attached then s.answer .notAttached
      else
        ⟨(s.tearDown q).modPort q fun u => { u.detach with sessionLost := true }, .ok, .none⟩

/-- EJECT (R97, R98). -/
def execEject (p : Port) (target : Byte) (s : State) : Host.Outcome State Fault Refusal :=
  s.runCommand p (.eject p target) fun s => s.whenAttached p (ejectBody p target)

/-- The body of MYSLOT (R106): the slot as it stands, and how many notices name it. -/
def mySlotBody (p : Port) (index : Byte) (s : State) : Answer :=
  if h : index.toNat < 8 then
    ⟨s, .ok, .mySlot (s.slot p ⟨index.toNat, h⟩) (s.noticesNaming p ⟨index.toNat, h⟩)⟩
  else s.answer .badParam

/-- MYSLOT (R106). -/
def execMySlot (p : Port) (index : Byte) (s : State) : Host.Outcome State Fault Refusal :=
  s.runCommand p (.mySlot p index) fun s => s.whenAttached p (mySlotBody p index)

end Sys2Proof.Machine
end

