-- ==== Sys2Proof/Machine/Staging.lean ====
section
/-! DEFINITION. Staging and commits (Chapter 9): STAGE_BEGIN, STAGE_SET, STAGE_READ, STAGE_ABORT,
COMMIT and STAGE_STATUS. -/

namespace Sys2Proof.Machine

/-- A configuration unit in STAGE_OPEN with an owner and an image (R166). -/
def ConfigUnit.openImage (c : ConfigUnit) (p : Port) (img : Image) : ConfigUnit :=
  { c with staging := .opened, owner := some p, image := some img }

/-- The body of STAGE_BEGIN (R166). -/
def stageBeginBody (p : Port) (s : State) : Answer :=
  if !(s.settings p).rights.configure then s.answer .noRight
  else if s.cfg.storeFrozen then s.answer .frozen
  else if s.cfg.staging ≠ .idle then s.answer .stageOwned
  else ⟨{ s with cfg := s.cfg.openImage p s.cfg.effective }, .ok, .none⟩

/-- STAGE_BEGIN (R166). -/
def execStageBegin (p : Port) (s : State) : Host.Outcome State Fault Refusal :=
  s.runCommand p (.stageBegin p) fun s => s.whenAttached p (stageBeginBody p)

/-- The two checks of R167, and the open image. An open staging always has its image (R165). -/
def State.withOpenImage (s : State) (p : Port) (body : Image → Answer) : Answer :=
  if s.cfg.staging ≠ .opened then s.answer .notOpen
  else if s.cfg.owner ≠ some p then s.answer .notOwner
  else
    match s.cfg.image with
    | some img => body img
    | none => s.answer .notOpen

/-- The body of STAGE_SET after R167 (R168). -/
def stageSetBody (item index : Byte) (value : Word) (s : State) (img : Image) : Answer :=
  match (itemOfCode item).bind fun it => img.setField it index value with
  | none => s.answer .badParam
  | some img' =>
    ⟨{ s with cfg := { s.cfg with image := some img' } }, .ok, .field item index value⟩

/-- STAGE_SET (R167, R168). -/
def execStageSet (p : Port) (item index : Byte) (value : Word) (s : State) :
    Host.Outcome State Fault Refusal :=
  s.runCommand p (.stageSet p item index value) fun s =>
    s.whenAttached p fun s => s.withOpenImage p (stageSetBody item index value s)

/-- The body of STAGE_READ after R167 (R169). -/
def stageReadBody (item index : Byte) (s : State) (img : Image) : Answer :=
  match (itemOfCode item).bind fun it => img.readField it index with
  | none => s.answer .badParam
  | some value => ⟨s, .ok, .field item index value⟩

/-- STAGE_READ (R167, R169). -/
def execStageRead (p : Port) (item index : Byte) (s : State) :
    Host.Outcome State Fault Refusal :=
  s.runCommand p (.stageRead p item index) fun s =>
    s.whenAttached p fun s => s.withOpenImage p (stageReadBody item index s)

/-- The image is discarded and staging is idle without an owner (R169). -/
def ConfigUnit.abort (c : ConfigUnit) : ConfigUnit :=
  { c with staging := .idle, owner := none, image := none }

/-- STAGE_ABORT (R167, R169). -/
def execStageAbort (p : Port) (s : State) : Host.Outcome State Fault Refusal :=
  s.runCommand p (.stageAbort p) fun s =>
    s.whenAttached p fun s => s.withOpenImage p fun _ => ⟨{ s with cfg := s.cfg.abort }, .ok, .none⟩

/-- The first check of R170 that an image fails, as the item and index the reply names. -/
def Image.badItem (img : Image) : Option (Item × Nat) :=
  match img.sharedKey with
  | some (_, higher) => some (.gateKey, higher.val)
  | none =>
    match img.shortLease with
    | some p => some (.maxLease, p.val)
    | none => if img.changeable then none else some (.frozen, 0)

/-- The copy a commit writes (R171). -/
def commitCopy (recordA recordB : Option Half) : Side :=
  match recordA, recordB with
  | some _, none => .b
  | none, some _ => .a
  | none, none => .a
  | some a, some b => if a < b then .a else .b

/-- The commit target: the copy and the stored sequence plus 1 (R171). -/
def ConfigUnit.nextTarget (c : ConfigUnit) : CommitTarget :=
  ⟨commitCopy c.recordA c.recordB, c.storedSeq.toNat + 1⟩

/-- The request for row one of a commit (R171); its two sequence bytes are the low 16 bits (log 20). -/
def firstRowRequest (t : CommitTarget) (img : Image) : RowRequest :=
  ⟨.copyOne t.copy, copyRowOne (BitVec.ofNat 16 t.seq) img, .configUnit⟩

/-- The request for row two of a commit (R173). -/
def secondRowRequest (t : CommitTarget) (img : Image) : RowRequest :=
  ⟨.copyTwo t.copy, copyRowTwo (BitVec.ofNat 16 t.seq) img, .configUnit⟩

/-- The acceptance of a COMMIT: COMMIT_PENDING, and the first row at the commit input (R171), started
there if the engine can start it (R158). -/
def State.acceptCommit (s : State) (img : Image) : State :=
  State.kickEngine
    { s with
      cfg := { s.cfg with staging := .commitPending, target := some s.cfg.nextTarget }
      store := { s.store with commitInput := some (firstRowRequest s.cfg.nextTarget img) } }

/-- The body of COMMIT after R167 (R170, R171). -/
def commitBody (s : State) (img : Image) : Answer :=
  match img.badItem with
  | some (item, index) => ⟨s, .badImage, .badItem item index⟩
  | none => ⟨s.acceptCommit img, .ok, .target s.cfg.nextTarget⟩

/-- COMMIT (R167, R170, R171). -/
def execCommit (p : Port) (s : State) : Host.Outcome State Fault Refusal :=
  s.runCommand p (.commit p) fun s => s.whenAttached p fun s => s.withOpenImage p (commitBody s)

/-- The fields of STAGE_STATUS (R176). -/
def ConfigUnit.view (c : ConfigUnit) : StagingView :=
  ⟨c.staging, c.owner, c.target, c.lastResult, c.effectiveSeq, c.storedSeq, c.storeFrozen⟩

/-- STAGE_STATUS (R176). -/
def execStageStatus (p : Port) (s : State) : Host.Outcome State Fault Refusal :=
  s.runCommand p (.stageStatus p) fun s =>
    s.whenAttached p fun s => ⟨s, .ok, .staging s.cfg.view⟩

end Sys2Proof.Machine
end

