-- ==== Sys2Proof/Machine/StoreRows.lean ====
section
/-! DEFINITION. The phases of a programming cycle (R157): ROW_ERASE_DONE, ROW_WRITE_DONE and
ROW_VERIFY_END, with what a row's end means to its requester (R58, R59, R173 to R175). -/

namespace Sys2Proof.Machine

/-- ROW_ERASE_DONE (R157): every byte of the row is FFh, and the write begins. In any other condition
of the engine the row changes nothing (log 4). -/
def execRowEraseDone (s : State) : Host.Outcome State Fault Refusal :=
  match s.store.engine with
  | .busy req attempt .erase =>
    .next { s with store := { s.store.setRow req.row blankRow with engine := .busy req attempt .write } }
  | .busy _ _ .write => .next s
  | .busy _ _ .verify => .next s
  | .idle => .next s

/-- ROW_WRITE_DONE (R157): the row holds the bytes of the request, and the verify begins (log 4). -/
def execRowWriteDone (s : State) : Host.Outcome State Fault Refusal :=
  match s.store.engine with
  | .busy req attempt .write =>
    .next { s with store := { s.store.setRow req.row req.bytes with engine := .busy req attempt .verify } }
  | .busy _ _ .erase => .next s
  | .busy _ _ .verify => .next s
  | .idle => .next s

/-- The engine returns to IDLE (R157). -/
def State.engineIdle (s : State) : State := { s with store := { s.store with engine := .idle } }

/-- The success of the first row of a commit: the second row waits at the commit input (R173). -/
def State.handSecondRow (s : State) : State :=
  match s.cfg.target, s.cfg.image with
  | some t, some img =>
    { s with store := { s.store with commitInput := some (secondRowRequest t img) } }
  | _, _ => s

/-- The copy record of a copy is set (R174, R175). -/
def ConfigUnit.setRecord (c : ConfigUnit) (side : Side) (q : Option Half) : ConfigUnit :=
  match side with
  | .a => { c with recordA := q }
  | .b => { c with recordB := q }

/-- The success of the second row: the commit is done (R174). A commit that is programmed has a
sequence of at most 65535 (R172), so its sequence fits its two bytes. -/
def ConfigUnit.completeCommit (c : ConfigUnit) : ConfigUnit :=
  match c.target with
  | some t =>
    let q := BitVec.ofNat 16 t.seq
    ({ c.setRecord t.copy (some q) with
        storedSeq := q
        storeFrozen := c.storeFrozen || c.image.any Image.frozen }).endCommit .done
  | none => c

/-- The failure of either row: the commit has failed (R175). -/
def ConfigUnit.failCommit (c : ConfigUnit) : ConfigUnit :=
  match c.target with
  | some t => (c.setRecord t.copy none).endCommit .failed
  | none => c

/-- A row has succeeded: its requester decides what that means (R58, R157, R173, R174). -/
def State.rowSucceeded (s : State) (req : RowRequest) : State :=
  match req.row with
  | .reserve side => s.completeAdvance side req.bytes
  | .copyOne _ => s.handSecondRow
  | .copyTwo _ => { s with cfg := s.cfg.completeCommit }

/-- A row has failed: its requester decides what that means (R59, R157, R175). -/
def State.rowFailed (s : State) (req : RowRequest) : State :=
  match req.row with
  | .reserve _ => s.failAdvance
  | .copyOne _ => { s with cfg := s.cfg.failCommit }
  | .copyTwo _ => { s with cfg := s.cfg.failCommit }

/-- The row does not read back as the request: its content is a free value (log 9). -/
def State.spoilRow (s : State) (req : RowRequest) : State :=
  let (n, s1) := s.drawFree
  { s1 with store := s1.store.setRow req.row (req.row.failedRow n) }

/-- Attempt 2 on the same row with the same bytes begins with the erase, whatever supply-low shows
(R157, R159). -/
def State.retryRow (s : State) (req : RowRequest) : State :=
  { s with store := { s.store with engine := .busy req .second .erase } }

/-- ROW_VERIFY_END (R157): success, attempt 2, or failure; an engine that is IDLE again starts a
waiting request, the advance first (R158). -/
def execRowVerifyEnd (matched : Bool) (s : State) : Host.Outcome State Fault Refusal :=
  match s.store.engine with
  | .busy req attempt .verify =>
    if matched then .next (s.engineIdle.rowSucceeded req).kickEngine
    else
      match attempt with
      | .first => .next ((s.spoilRow req).retryRow req)
      | .second => .next (((s.spoilRow req).engineIdle.rowFailed req).kickEngine)
  | .busy _ _ .erase => .next s
  | .busy _ _ .write => .next s
  | .idle => .next s

end Sys2Proof.Machine
end

