-- ==== Sys2Proof/Machine/Supply.lean ====
section
/-! DEFINITION. Start-up, supply and restart (Chapter 10): the supply monitor's events, the RST pin,
RESTART and the end of BOOT. The order of the supply levels: log 16. -/

namespace Sys2Proof.Machine

/-- SUPPLY_LOW_SET (R187): in every device state; below the power-on level the monitor is cleared. -/
def execSupplyLowSet (s : State) : Host.Outcome State Fault Refusal :=
  match s.supply.region with
  | .off => .next s
  | .held | .released => .next { s with supply := { s.supply with low := true } }

/-- SUPPLY_LOW_CLEAR (R158, R187): a waiting request starts at once, the advance first. -/
def execSupplyLowClear (s : State) : Host.Outcome State Fault Refusal :=
  match s.supply.region with
  | .off => .next s
  | .held => .next s
  | .released => .next { s with supply := { s.supply with low := false } }.kickEngine

/-- The supply is below the release level and above the power-on level: supply-low is set (R188). -/
def SupplyMonitor.hold (m : SupplyMonitor) : SupplyMonitor := { m with region := .held, low := true }

/-- BROWNOUT (R188): out of IN_RESET a device reset with cause BROWNOUT begins. -/
def execBrownout (s : State) : Host.Outcome State Fault Refusal :=
  match s.device with
  | .inReset => .next s
  | .boot | .ready => .next ({ s with supply := s.supply.hold }.beginReset .brownout)

/-- SUPPLY_BELOW_BROWNOUT_IN_RESET (R181): a condition that lengthens the reset, not recorded. -/
def execSupplyBelowBrownoutInReset (s : State) : Host.Outcome State Fault Refusal :=
  match s.device, s.supply.region with
  | .inReset, .released => .next { s with supply := s.supply.hold }
  | _, _ => .next s

/-- SUPPLY_BELOW_POWER_ON_LEVEL (R188): the supply monitor is cleared, cause and flag included. A part
still out of IN_RESET passes through a brownout on the way, so its reset begins first (log 16). -/
def execSupplyBelowPowerOnLevel (s : State) : Host.Outcome State Fault Refusal :=
  let s1 := match s.device with
    | .inReset => s
    | .boot | .ready => s.beginReset .brownout
  .next { s1 with supply := ⟨.off, false, none⟩, restartTick := false }

/-- POWER_ON (R181, R188): the supply rises through the power-on level; supply-low is set. -/
def execPowerOn (s : State) : Host.Outcome State Fault Refusal :=
  match s.supply.region with
  | .off => .next ({ s with supply := s.supply.hold, restartTick := false }.beginReset .powerOn)
  | .held => .next s
  | .released => .next s

/-- SUPPLY_RELEASE (R188): the release level; BOOT if RST is taken as high. -/
def execSupplyRelease (s : State) : Host.Outcome State Fault Refusal :=
  match s.supply.region with
  | .off => .next s
  | .held => .next { s with supply := { s.supply with region := .released } }.leaveReset
  | .released => .next s

/-- RST_TAKEN_LOW (R181, R182): outside IN_RESET a device reset with cause PIN begins. -/
def execRstTakenLow (s : State) : Host.Outcome State Fault Refusal :=
  let s1 := { s with rstLow := true }
  match s.device with
  | .inReset => .next s1
  | .boot | .ready => .next (s1.beginReset .pin)

/-- RST_TAKEN_HIGH (R182): BOOT if the supply is above the release level, or has sagged from above it no
further than the brownout threshold (log 35). -/
def execRstTakenHigh (s : State) : Host.Outcome State Fault Refusal :=
  .next { s with rstLow := false }.leaveReset

/-- The body of RESTART (R189): with the reply placed, the RESTART hold begins. -/
def restartBody (p : Port) (s : State) : Answer :=
  if (s.settings p).rights.configure then ⟨{ s with hold := .holding }, .ok, .none⟩
  else s.answer .noRight

/-- RESTART (R189). -/
def execRestart (p : Port) (s : State) : Host.Outcome State Fault Refusal :=
  s.runCommand p (.restart p) fun s => s.whenAttached p (restartBody p)

/-- BOOT_END (R185): the one event of steps 5 and 6 that ends BOOT. -/
def execBootEnd (s : State) : Host.Outcome State Fault Refusal :=
  match s.device with
  | .boot => .next s.endBoot
  | .inReset => .next s
  | .ready => .next s

end Sys2Proof.Machine
end

