-- ==== Sys2Proof/Machine/Dispatch.lean ====
section
/-! DEFINITION. The effect of one row on the part: one arm per constructor of Instr, each a call of its
meaning. -/

namespace Sys2Proof.Machine

def exec (i : Instr) (s : State) : Host.Outcome State Fault Refusal :=
  match i with
  | .hello p => Sys2Proof.Machine.execHello p s
  | .bye p => Sys2Proof.Machine.execBye p s
  | .acquire p key mode lease wait => Sys2Proof.Machine.execAcquire p key mode lease wait s
  | .release p key token => Sys2Proof.Machine.execRelease p key token s
  | .cancel p key => Sys2Proof.Machine.execCancel p key s
  | .renew p key token lease => Sys2Proof.Machine.execRenew p key token lease s
  | .verify p key token => Sys2Proof.Machine.execVerify p key token s
  | .peekNotice p => Sys2Proof.Machine.execPeekNotice p s
  | .ackNotice p seq => Sys2Proof.Machine.execAckNotice p seq s
  | .lookup p key => Sys2Proof.Machine.execLookup p key s
  | .list p start => Sys2Proof.Machine.execList p start s
  | .time p => Sys2Proof.Machine.execTime p s
  | .status p => Sys2Proof.Machine.execStatus p s
  | .ident p => Sys2Proof.Machine.execIdent p s
  | .mySlot p index => Sys2Proof.Machine.execMySlot p index s
  | .revoke p key target => Sys2Proof.Machine.execRevoke p key target s
  | .eject p target => Sys2Proof.Machine.execEject p target s
  | .restart p => Sys2Proof.Machine.execRestart p s
  | .stageBegin p => Sys2Proof.Machine.execStageBegin p s
  | .stageSet p item index value => Sys2Proof.Machine.execStageSet p item index value s
  | .stageRead p item index => Sys2Proof.Machine.execStageRead p item index s
  | .stageAbort p => Sys2Proof.Machine.execStageAbort p s
  | .commit p => Sys2Proof.Machine.execCommit p s
  | .stageStatus p => Sys2Proof.Machine.execStageStatus p s
  | .send p first rest => Sys2Proof.Machine.execSend p first rest s
  | .fetch p first rest => Sys2Proof.Machine.execFetch p first rest s
  | .poll p first rest => Sys2Proof.Machine.execPoll p first rest s
  | .unrecognisedKindByte p first rest => Sys2Proof.Machine.execUnrecognisedKindByte p first rest s
  | .tick => Sys2Proof.Machine.execTick s
  | .leaseExpiry p key => Sys2Proof.Machine.execLeaseExpiry p key s
  | .waitExpiry p key => Sys2Proof.Machine.execWaitExpiry p key s
  | .guardDeadline ch => Sys2Proof.Machine.execGuardDeadline ch s
  | .ginhChange ch level => Sys2Proof.Machine.execGinhChange ch level s
  | .reservedHeadPass => Sys2Proof.Machine.execReservedHeadPass s
  | .tokenFaultWithdrawal => Sys2Proof.Machine.execTokenFaultWithdrawal s
  | .rowEraseDone => Sys2Proof.Machine.execRowEraseDone s
  | .rowWriteDone => Sys2Proof.Machine.execRowWriteDone s
  | .rowVerifyEnd matched => Sys2Proof.Machine.execRowVerifyEnd matched s
  | .supplyLowSet => Sys2Proof.Machine.execSupplyLowSet s
  | .supplyLowClear => Sys2Proof.Machine.execSupplyLowClear s
  | .brownout => Sys2Proof.Machine.execBrownout s
  | .supplyBelowPowerOnLevel => Sys2Proof.Machine.execSupplyBelowPowerOnLevel s
  | .powerOn => Sys2Proof.Machine.execPowerOn s
  | .supplyRelease => Sys2Proof.Machine.execSupplyRelease s
  | .rstTakenLow => Sys2Proof.Machine.execRstTakenLow s
  | .rstTakenHigh => Sys2Proof.Machine.execRstTakenHigh s
  | .restartHoldEnd => Sys2Proof.Machine.execRestartHoldEnd s
  | .bootEnd => Sys2Proof.Machine.execBootEnd s
  | .supplyBelowBrownoutInReset => Sys2Proof.Machine.execSupplyBelowBrownoutInReset s

end Sys2Proof.Machine
end

