-- ==== Sys2Proof/Safety.lean ====
section
/-! DEFINITION. What counts as a safe run of the part, in the terms the statements use: what a command
without effect leaves, what the claim operations never touch, what a device reset clears, and the
invariants of a run. -/

namespace Sys2Proof.Machine

/-! ### Terms of the statements -/

/-- A command taken without effect: its port becomes the port served last, and its reply is placed
(R17, R147). -/
def State.replyOnly (s : State) (p : Port) (tag : BitVec 4) (cmd : Instr) (status : Status)
    (fields : Fields) : State :=
  { s with served := p }.placeReply p tag cmd status fields

/-- What no operation on claims touches: everything but the claim table, the slots, the notice queues
with their counters, the states of the gate channels, the token unit's G, state and demand flag, the
advance it requests, and the report of a fault it makes. -/
structure ClaimFrame (s t : State) : Prop where
  device : t.device = s.device
  hold : t.hold = s.hold
  restartTick : t.restartTick = s.restartTick
  now : t.now = s.now
  served : t.served = s.served
  sessionCounter : t.sessionCounter = s.sessionCounter
  availSweep : t.availSweep = s.availSweep
  port : ∀ q, t.port q = { s.port q with notices := (t.port q).notices, seq := (t.port q).seq }
  floor : t.tok.F = s.tok.F
  active : t.tok.active = s.tok.active
  bootFloor : t.tok.bootFloor = s.tok.bootFloor
  chan : ∀ ch, t.chan ch = { s.chan ch with state := (t.chan ch).state }
  ginhPin : t.ginhPin = s.ginhPin
  rows : t.store.rows = s.store.rows
  commitInput : t.store.commitInput = s.store.commitInput
  cfg : t.cfg = s.cfg
  supply : t.supply = s.supply
  rstLow : t.rstLow = s.rstLow
  factory : t.factory = s.factory
  pending : t.pending = s.pending
  free : t.free = s.free

/-- The class of a reserve row as it stands. -/
def State.reserveRowClass (s : State) (side : Side) : ReserveClass :=
  reserveClass (s.store.row (.reserve side))

/-- The effect of one draw on the token unit and the store (R54, R56, R62): G advances by 1; a draw that
makes G equal to F at 4294967295 enters TOKENS_SPENT and reports it; one that leaves F − G at 32 or less
in NORMAL, with F below 4294967295, requests the advance to F + 256, or to 4294967295 if that is exceeded,
which starts at once on an idle engine with supply-low clear (R158). -/
def TokenDrawn (s t : State) : Prop :=
  let G := s.tok.G + 1#32
  let F := s.tok.F
  let floor : Word := if 4294967295 < F.toNat + 256 then 4294967295#32 else F + 256#32
  let req : RowRequest := ⟨.reserve (advanceTarget s.tok.active (s.reserveRowClass .a)
    (s.reserveRowClass .b)), reserveRow floor, .tokenUnit⟩
  if G = F ∧ F = 4294967295#32 then
    t.tok = { s.tok with G := G, state := .tokensSpent } ∧ t.faultSweep = some 0 ∧ t.store = s.store
  else if s.tok.state = .normal ∧ F - G ≤ 32#32 ∧ F ≠ 4294967295#32 then
    t.tok = { s.tok with G := G, state := .advancing } ∧ t.faultSweep = s.faultSweep ∧
      t.store = (if s.store.engine = .idle ∧ s.supply.low = false then
          { s.store with advanceInput := none, engine := .busy req .first .erase }
        else { s.store with advanceInput := some req })
  else t.tok = { s.tok with G := G } ∧ t.faultSweep = s.faultSweep ∧ t.store = s.store

/-- What an engine that is IDLE does with the requests that wait at its inputs (R158, R159, R172, R173):
nothing with supply-low set; otherwise the advance starts; alone, a commit row starts, the first row of a
commit moving staging to PROGRAMMING, or being refused where the new sequence is above 65535. -/
def InputsServed (s t : State) : Prop :=
  if s.supply.low = true then t = s
  else
    match s.store.advanceInput, s.store.commitInput with
    | some req, _ =>
      t = { s with store := { s.store with advanceInput := none, engine := .busy req .first .erase } }
    | none, none => t = s
    | none, some req =>
      let started := { s.store with commitInput := none, engine := .busy req .first .erase }
      match req.row with
      | .copyOne _ =>
        if ∃ target, s.cfg.target = some target ∧ 65535 < target.seq then
          t = { s with
            store := { s.store with commitInput := none }
            cfg := { s.cfg with
              staging := .idle, owner := none, image := none, target := none, lastResult := .refused } }
        else t = { s with store := started, cfg := { s.cfg with staging := .programming } }
      | .copyTwo _ => t = { s with store := started }
      | .reserve _ => t = { s with store := started }

/-- How a grant pass leaves a record (R9, R13, R14, R95): it stands only with an entry, and the head of its
queue is not admissible, RESERVED where its mode is compatible with the holdings. -/
def State.passDone (s : State) (i : RecIx) : Prop :=
  ∀ r, s.record i = some r →
    r.isEmpty = false ∧
    ∀ w rest, r.waiters = w :: rest →
      s.admissible r w.mode = false ∧ (r.compatible w.mode = true → w.state = .reserved)

/-- A channel after the end of an EXCLUSIVE holding of its key (R75): from HIGH or HELD_LOW to GUARD, its
deadline now plus the guard interval, or to IDLE where the interval is 0. -/
def GateChannel.ended (c : GateChannel) (now : Word) : GateChannel :=
  if c.state = .high ∨ c.state = .heldLow then
    { c with state := if c.guard = 0#16 then .idle else .guard (now + c.guard.setWidth 32) }
  else c

/-- The end of a holding up to its pass (R24): the record without it, its slot as given, the channel of a
bound key told of the end of an EXCLUSIVE holding (R75). -/
def State.holdingGone (s : State) (i : RecIx) (r : Record) (p : Port) (h : Holding) (sl : Slot) : State :=
  let t := (s.setRecord i (some (r.setHolder p none))).setSlot p h.slot sl
  match h.mode, s.boundChannel r.key with
  | .exclusive, some ch => t.setChan ch ((s.chan ch).ended s.now)
  | _, _ => t

/-- The record at an index after the departure of a port's waiter entry up to the pass (R25): the entry out
of the queue, and a record without an entry retired (R9); the entry's slot as given. -/
def State.entryGone (s : State) (i : RecIx) (r : Record) (p : Port) (k : SlotIx) (sl : Slot) : State :=
  let left := { r with waiters := r.waiters.filter fun v => v.port != p }
  (s.setRecord i (if left.isEmpty then none else some left)).setSlot p k sl

/-- A key has an EXCLUSIVE holding. -/
def State.heldExclusive (s : State) (key : Word) : Prop :=
  ∃ i : RecIx, ∃ r ∈ s.record i, r.key = key ∧ ∃ p : Port, ∃ h ∈ r.holder p, h.mode = .exclusive

/-- What the end of an EXCLUSIVE holding does to the channel of its key (R75): out of HIGH or HELD_LOW it
stands in GUARD, its deadline now plus the guard interval; with an interval of 0 it is IDLE, or taken again
by the head that the pass has granted. -/
def EndReported (s t : State) (key : Word) (ch : Channel) : Prop :=
  (s.chan ch).state = .high ∨ (s.chan ch).state = .heldLow →
    ((s.chan ch).guard ≠ 0#16 →
      (t.chan ch).state = .guard (s.now + (s.chan ch).guard.setWidth 32)) ∧
    ((s.chan ch).guard = 0#16 → (t.chan ch).state = .idle ∨
      t.heldExclusive key ∧ (t.chan ch).state = if (s.chan ch).ginh then .heldLow else .high)

/-- A waiter that removals and a pass leave alone: it waits on, QUEUED or RESERVED, or has been granted. -/
def WaiterStands (t : State) (i : RecIx) (w : Waiter) (now : Word) : Prop :=
  ∃ r, t.record i = some r ∧
    ((∃ st, { w with state := st } ∈ r.waiters) ∨
      ∃ token, r.holder w.port = some ⟨w.mode, token, now + w.lease.setWidth 32, w.slot⟩)

/-- The rows after a row of a request has failed its verification: that row blank or corrupt, every other
as it was (R59, logs 9 and 34). -/
def RowFailed (req : RowRequest) (old new : Vector Row 7) : Prop :=
  (∀ k, k ≠ req.row.index → new[k] = old[k]) ∧
  (new[req.row.index] = blankRow ∨ req.row.readsCorrupt new[req.row.index] = true)

/-- What a reset leaves of the row in progress, by the phase it stopped (R160). A row under verification
keeps its content, the bytes of the request (FloorInv). -/
def RowTorn (req : RowRequest) (phase : Phase) (old new : Row) : Prop :=
  match phase with
  | .erase => new = old ∨ new = blankRow ∨ req.row.readsCorrupt new = true
  | .write => new = blankRow ∨ req.row.readsCorrupt new = true
  | .verify => new = old

/-- What a device reset leaves, whatever its cause (R7, R17, R32, R88, R120, R136, R154, R160, R179,
R180). -/
structure ResetCleared (s t : State) : Prop where
  device : t.device = .inReset
  hold : t.hold = .none
  now : t.now = 0#32
  table : ∀ i, t.record i = none
  slots : ∀ p i, t.slot p i = .free
  served : t.served = 3
  sessionCounter : t.sessionCounter = 0#16
  sweeps : t.availSweep = none ∧ t.faultSweep = none
  ports : ∀ p, t.port p = { PortUnit.reset with pins := (s.port p).pins }
  linesLow : ∀ ch, (t.chan ch).lineHigh = false
  engine : t.store.engine = .idle ∧ t.store.advanceInput = none ∧ t.store.commitInput = none
  staging : t.cfg.staging = .idle ∧ t.cfg.owner = none ∧ t.cfg.lastResult = .none
  rows : ∀ k : Fin 7, (∀ req attempt phase, s.store.engine = .busy req attempt phase → req.row.index ≠ k) →
    t.store.rows[k] = s.store.rows[k]
  torn : ∀ req attempt phase, s.store.engine = .busy req attempt phase →
    RowTorn req phase (s.store.row req.row) (t.store.row req.row)
  kept : t.ginhPin = s.ginhPin ∧ t.rstLow = s.rstLow ∧ t.pending = s.pending

/-- The class of a configuration copy as its two rows stand. -/
def State.copyRowsClass (s : State) (side : Side) : CopyClass :=
  copyClass (s.store.row (.copyOne side)) (s.store.row (.copyTwo side))

/-- What entering BOOT leaves selected from the rows (R68, R79, R163, R183, R184; what each selection gives,
StartUpSelection says), everything else but the device state as it stood. The supply stands as the
event has left it, which each statement says; SDO of a port whose CSn is low already is driven (R136), its
level left open (log 30), for which four free values are drawn (log 19). -/
structure BootSelected (s t : State) : Prop where
  device : t.device = .boot
  factory : t.factory = readFactory s.store.factoryRow
  tok : t.tok = selectTokens (s.reserveRowClass .a) (s.reserveRowClass .b)
  cfg : t.cfg = selectConfig (s.copyRowsClass .a) (s.copyRowsClass .b)
  chans : ∀ ch, t.chan ch = startChannel (t.cfg.effective.chan ch) s.ginhPin
  store : t.store = s.store
  table : t.table = s.table
  slots : t.slots = s.slots
  ports : ∀ p, t.port p = { s.port p with sdo := (t.port p).sdo } ∧
    ((s.port p).pins.csn = true → (t.port p).sdo = (s.port p).sdo) ∧
    ((s.port p).pins.csn = false → (t.port p).sdo.isSome = true)
  now : t.now = s.now
  hold : t.hold = s.hold
  restartTick : t.restartTick = s.restartTick
  served : t.served = s.served
  sessionCounter : t.sessionCounter = s.sessionCounter
  availSweep : t.availSweep = s.availSweep
  faultSweep : t.faultSweep = s.faultSweep
  ginhPin : t.ginhPin = s.ginhPin
  rstLow : t.rstLow = s.rstLow
  pending : t.pending = s.pending
  free : t.free = s.free + 4

/-! ### Invariants -/

/-- Whether a request is for a reserve row. -/
def RowRequest.isAdvance (req : RowRequest) : Bool :=
  match req.row with
  | .reserve _ => true
  | .copyOne _ => false
  | .copyTwo _ => false

/-- The request the engine programs. -/
def Engine.request (e : Engine) : Option RowRequest :=
  match e with
  | .idle => none
  | .busy req _ _ => some req

/-- G is never greater than F (R53), with what makes it last: an advance is on its way in ADVANCING
alone, at one place, towards a floor no lower than F; F is below its greatest value in ADVANCING; no
request stands outside READY, and none waits at an idle engine with supply-low clear (R158). -/
def TokenInv (s : State) : Prop :=
  s.tok.G ≤ s.tok.F ∧
  (s.tok.state = .advancing → s.tok.F ≠ maxWord) ∧
  (s.device ≠ .ready →
    s.store.engine = .idle ∧ s.store.advanceInput = none ∧ s.store.commitInput = none) ∧
  (s.store.engine = .idle → s.supply.low = false →
    s.store.advanceInput = none ∧ s.store.commitInput = none) ∧
  (∀ req ∈ s.store.commitInput, req.isAdvance = false) ∧
  (∀ req ∈ s.store.advanceInput, req.isAdvance = true ∧ s.tok.state = .advancing ∧
    s.tok.F ≤ rowWord req.bytes 0 ∧ ∀ r ∈ s.store.engine.request, r.isAdvance = false) ∧
  (∀ req ∈ s.store.engine.request, req.isAdvance = true →
    s.tok.state = .advancing ∧ s.tok.F ≤ rowWord req.bytes 0)

/-- The token of every holding is below G (R53, R54); in IN_RESET the table is empty (R7). -/
def HoldingTokenInv (s : State) : Prop :=
  (∀ i : RecIx, ∀ r ∈ s.record i, ∀ p : Port, ∀ h ∈ r.holder p, h.token < s.tok.G) ∧
  (s.device = .inReset → ∀ i : RecIx, s.record i = none)

/-- A record names no port twice (R3). -/
def Record.onePerPort (r : Record) : Prop :=
  (r.waiters.map fun w => w.port).Nodup ∧ ∀ w ∈ r.waiters, r.holder w.port = none

/-- The slot that accounts for a holding, and the one that accounts for a waiter entry (R103). -/
def Holding.slotState (h : Holding) (key : Word) : Slot := .holding key h.mode h.token h.deadline

def Waiter.slotState (w : Waiter) (key : Word) : Slot :=
  match w.state with
  | .queued => .waiting key w.mode w.deadline w.lease
  | .reserved => .reserved key w.mode w.deadline w.lease

/-- A record that stands in the table: a valid key (R1), an entry (R3), no port twice (R3), an EXCLUSIVE
holding alone (R4), RESERVED only at the head of the queue (R5), every port it names ATTACHED (R88), and
every claim accounted for by its slot, in the matching state with the same fields (R103). -/
structure RecordInv (s : State) (r : Record) : Prop where
  key : r.key ≠ 0#32
  entry : r.isEmpty = false
  onePerPort : r.onePerPort
  alone : ∀ p : Port, ∀ h ∈ r.holder p, h.mode = .exclusive → ∀ q : Port, q ≠ p → r.holder q = none
  reservedHead : ∀ w ∈ r.waiters.tail, w.state = .queued
  holders : ∀ p : Port, ∀ h ∈ r.holder p,
    (s.port p).attached = true ∧ s.slot p h.slot = h.slotState r.key
  waiters : ∀ w ∈ r.waiters, (s.port w.port).attached = true ∧ s.slot w.port w.slot = w.slotState r.key

/-- A slot accounts for a claim that stands, or is FREE or PINNED; the number of notices that name it is 0
or 1 in HOLDING, 1 or 2 in PINNED, and 0 otherwise (R103, R111). -/
def SlotInv (s : State) (p : Port) (k : SlotIx) : Prop :=
  let named := (s.port p).notices.countP fun n => n.slot == k
  match s.slot p k with
  | .free => named = 0
  | .waiting key _ _ _ => named = 0 ∧
    ∃ i : RecIx, ∃ r ∈ s.record i, r.key = key ∧ ∃ w ∈ r.waiters, w.port = p ∧ w.slot = k
  | .reserved key _ _ _ => named = 0 ∧
    ∃ i : RecIx, ∃ r ∈ s.record i, r.key = key ∧ ∃ w ∈ r.waiters, w.port = p ∧ w.slot = k
  | .holding key _ _ _ => named ≤ 1 ∧
    ∃ i : RecIx, ∃ r ∈ s.record i, r.key = key ∧ ∃ h ∈ r.holder p, h.slot = k
  | .pinned _ _ => 1 ≤ named ∧ named ≤ 2

/-- The claim table with its slots and notices: every record as RecordInv says, no two of one key (R3);
every slot as SlotInv says; at most 16 notices in a queue, of consecutive sequence numbers up to the
counter (R111, R112); a DETACHED port has no slot that is not FREE and no notice (R88). -/
structure ClaimTableInv (s : State) : Prop where
  records : ∀ i : RecIx, ∀ r ∈ s.record i, RecordInv s r
  keys : ∀ i j : RecIx, ∀ r ∈ s.record i, ∀ r' ∈ s.record j, r.key = r'.key → i = j
  slots : ∀ (p : Port) (k : SlotIx), SlotInv s p k
  queues : ∀ p : Port, (s.port p).notices.length ≤ 16 ∧
    (s.port p).notices.map (fun n => n.seq) = (List.range (s.port p).notices.length).map fun j =>
      (s.port p).seq - BitVec.ofNat 8 ((s.port p).notices.length - j)
  detached : ∀ p : Port, (s.port p).attached = false →
    (∀ k : SlotIx, s.slot p k = .free) ∧ (s.port p).notices = []

/-- The meaning of the channel states (R73): UNBOUND exactly where there is no bound key; in IDLE and GUARD
the bound key has no EXCLUSIVE holding; in HIGH and HELD_LOW it has one, with GINH released and asserted.
The channels carry the keys of the effective configuration, no two of which share a key (R6, R72). -/
def GateInv (s : State) : Prop :=
  (∀ ch : Channel, (s.chan ch).key = (s.cfg.effective.chan ch).key) ∧
  s.cfg.effective.sharedKey = none ∧
  ∀ ch : Channel,
    ((s.chan ch).state = .unbound ↔ (s.chan ch).key = 0#32) ∧
    ((s.chan ch).state = .idle → ¬s.heldExclusive (s.chan ch).key) ∧
    (∀ deadline, (s.chan ch).state = .guard deadline → ¬s.heldExclusive (s.chan ch).key) ∧
    ((s.chan ch).state = .high → (s.chan ch).ginh = false ∧ s.heldExclusive (s.chan ch).key) ∧
    ((s.chan ch).state = .heldLow → (s.chan ch).ginh = true ∧ s.heldExclusive (s.chan ch).key)

/-- The device state and what it rules out. The part is in IN_RESET exactly while a reset condition holds, the
supply below the release level (log 35) or RST taken as low (R180); the RESTART hold runs in READY alone (R190); in the
tick of a RESTART's reset, which is over before READY, the recorded cause is RESTART (R181, log 32);
supply-low is set below the release level (R188). Outside READY the tick counter is 0, the table is empty,
every port is as the device reset left it (R153, R154), and no channel is HIGH or HELD_LOW (R73). -/
structure DeviceInv (s : State) : Prop where
  inReset : s.device = .inReset ↔ s.supply.region ≠ .released ∨ s.rstLow = true
  hold : s.hold ≠ .none → s.device = .ready
  restartTick : s.restartTick = true → s.device ≠ .ready ∧ s.supply.cause = some .restart
  supplyLow : s.supply.region = .held → s.supply.low = true
  now : s.device ≠ .ready → s.now = 0#32
  table : s.device ≠ .ready → ∀ i, s.record i = none
  ports : s.device ≠ .ready → ∀ p : Port,
    (s.port p).slot = .empty ∧ (s.port p).lastTag = none ∧ (s.port p).frameError = false ∧
    (s.port p).overrun = false ∧ (s.port p).attached = false ∧ (s.port p).sessionLost = true
  lines : s.device ≠ .ready → ∀ ch, (s.chan ch).state ≠ .high ∧ (s.chan ch).state ≠ .heldLow

/-- The link of each port (R136 to R139, R147): SDO is high-impedance and no transaction is in progress while
CSn is high and in IN_RESET; outside IN_RESET SDO is driven while CSn is low, and so throughout a transaction,
whose byte in progress has fewer than eight bits; the receive buffer holds at most 16 bytes; a pending reply
slot holds a command of that port. -/
def LinkInv (s : State) : Prop :=
  ∀ p : Port,
    ((s.port p).pins.csn = true ∨ s.device = .inReset →
      (s.port p).transfer = none ∧ (s.port p).sdo = none) ∧
    ((s.port p).pins.csn = false → s.device ≠ .inReset → (s.port p).sdo.isSome = true) ∧
    (∀ t ∈ (s.port p).transfer, (s.port p).sdo.isSome = true ∧ t.bitsIn.length < 8) ∧
    (s.port p).rx.length ≤ 16 ∧
    ∀ tag c, (s.port p).slot = .pending tag c → ∃ code params, wireOf c = some (p, code, params)

/-- The other reserve row. -/
def Side.other (side : Side) : Side :=
  match side with
  | .a => .b
  | .b => .a

/-- The floor below which every token ever issued lies (R54, R68): F, or in IN_RESET what start-up
selection would take from the rows. -/
def State.committedFloor (s : State) : Word :=
  match s.device with
  | .inReset => (selectTokens (s.reserveRowClass .a) (s.reserveRowClass .b)).F
  | .boot => s.tok.F
  | .ready => s.tok.F

/-- A row request on its way for a reserve row, in the engine or at its input. -/
def State.advances (s : State) (req : RowRequest) : Prop :=
  s.store.engine.request = some req ∨ s.store.advanceInput = some req

/-- What lets the floor survive a device reset at any moment (R66, R67): the active row holds F and no
request is for it; with no active row F is at most 1 and the row beside a request is blank; a request
carries a floor no lower than F, and a row under verification holds what was asked. -/
def FloorInv (s : State) : Prop :=
  ¬(s.reserveRowClass .a = .corrupt ∧ s.reserveRowClass .b = .corrupt) ∧
  (s.tok.state = .normal → s.tok.active ≠ none) ∧
  (s.device ≠ .inReset →
    (∀ side, s.tok.active = some side → s.reserveRowClass side = .valid s.tok.F) ∧
    (s.tok.active = none → s.tok.F ≤ 1#32)) ∧
  (s.device = .boot → s.tok.active = none →
    ∀ side floor, s.reserveRowClass side ≠ .valid floor) ∧
  (∀ req attempt, s.store.engine = .busy req attempt .verify → s.store.row req.row = req.bytes) ∧
  ∀ req side, s.advances req → req.row = .reserve side →
    s.tok.active ≠ some side ∧ (s.tok.active = none → s.reserveRowClass side.other = .blank) ∧
    ∃ floor, floor ≠ 0#32 ∧ s.tok.F ≤ floor ∧ req.bytes = reserveRow floor

/-- No row of a commit waits at the commit input, and the engine programs none. -/
def State.noCommitRow (s : State) : Prop :=
  s.store.commitInput = none ∧ ∀ req ∈ s.store.engine.request, req.isAdvance = true

/-- The ranges that STAGE_SET keeps on an open image (R168); a max lease may stand below 10 (R170). -/
def Image.staged (img : Image) : Prop :=
  (∀ p, (img.port p).maxLease ≤ 60000#16 ∧ (img.port p).maxWait ≤ 60000#16) ∧
  ∀ ch, (img.chan ch).guard ≤ 10000#16

/-- The copy record of a copy (R165). -/
def ConfigUnit.record (c : ConfigUnit) (side : Side) : Option Half :=
  match side with
  | .a => c.recordA
  | .b => c.recordB

/-- Where the rows of a commit in PROGRAMMING stand (R173): the first row in the engine; or the first row
written, and the second row in the engine or at the commit input, an advance perhaps before it. -/
def State.commitUnderWay (s : State) (target : CommitTarget) (img : Image) : Prop :=
  (s.store.commitInput = none ∧ s.store.engine.request = some (firstRowRequest target img)) ∨
  s.store.row (.copyOne target.copy) = copyRowOne (BitVec.ofNat 16 target.seq) img ∧
    ((s.store.commitInput = none ∧ s.store.engine.request = some (secondRowRequest target img)) ∨
      s.store.commitInput = some (secondRowRequest target img) ∧
        ∀ req ∈ s.store.engine.request, req.isAdvance = true)

/-- The configuration unit (R165). The configuration in force lies in the ranges of R161. STAGE_IDLE has
neither owner, image nor target, STAGE_OPEN an owner and an image in the ranges of R168, and no commit row
is requested or programmed in either; outside READY staging is idle. COMMIT_PENDING and PROGRAMMING have an
owner, an image that passed R170, and the target of R171, their rows where R171 and R173 put them; a
sequence that is programmed is at most 65535 (R172). The copy that a commit does not target holds the newest
stored image (R171). With the store-frozen flag set a valid frozen copy stands in the rows and staging is
idle (R172). -/
structure ConfigInv (s : State) : Prop where
  limits : s.cfg.effective.inRange = true
  notReady : s.device ≠ .ready → s.cfg.staging = .idle
  idle : s.cfg.staging = .idle →
    s.cfg.owner = none ∧ s.cfg.image = none ∧ s.cfg.target = none ∧ s.noCommitRow
  opened : s.cfg.staging = .opened → s.cfg.owner.isSome = true ∧ s.cfg.target = none ∧ s.noCommitRow ∧
    ∃ img, s.cfg.image = some img ∧ img.staged
  committed : s.cfg.staging = .commitPending ∨ s.cfg.staging = .programming →
    s.cfg.owner.isSome = true ∧ s.cfg.target = some s.cfg.nextTarget ∧
    ∃ img, s.cfg.image = some img ∧ img.inRange = true ∧ img.sharedKey = none ∧ img.changeable = true
  commitPending : s.cfg.staging = .commitPending → ∀ img ∈ s.cfg.image,
    s.store.commitInput = some (firstRowRequest s.cfg.nextTarget img) ∧
    ∀ req ∈ s.store.engine.request, req.isAdvance = true
  programming : s.cfg.staging = .programming → ∀ img ∈ s.cfg.image,
    s.cfg.nextTarget.seq ≤ 65535 ∧ s.commitUnderWay s.cfg.nextTarget img
  records : ∀ side, ∀ q ∈ s.cfg.record side, q ≤ s.cfg.storedSeq
  newest : s.cfg.storedSeq ≠ 0#16 →
    s.cfg.record s.cfg.nextTarget.copy.other = some s.cfg.storedSeq ∧
    ∃ img, s.copyRowsClass s.cfg.nextTarget.copy.other = .valid s.cfg.storedSeq img
  frozen : s.cfg.storeFrozen = true → s.cfg.staging = .idle ∧
    ∃ side seq img, s.copyRowsClass side = .valid seq img ∧ img.frozen = true

/-- The store is frozen (R172): the store-frozen flag is set, or in IN_RESET a valid frozen copy stands in
the rows, from which BOOT sets the flag again (R163). -/
def State.storeIsFrozen (s : State) : Prop :=
  s.cfg.storeFrozen = true ∨
    s.device = .inReset ∧ ∃ side seq img, s.copyRowsClass side = .valid seq img ∧ img.frozen = true

/-- The deadlines (R33): a running lease or wait deadline lies 0 to 60000 ticks ahead of now, a guard
deadline no further ahead than the guard interval of its channel, which is at most 10000 and the one in
force. The lease stored in a waiter entry, from which its grant forms a deadline, is one that its port may
ask for (R36). A RESERVED entry's deadline does not run (R35). -/
structure DeadlineInv (s : State) : Prop where
  leases : ∀ i : RecIx, ∀ r ∈ s.record i, ∀ p : Port, ∀ h ∈ r.holder p,
    h.deadline - s.now ≤ 60000#32
  waits : ∀ i : RecIx, ∀ r ∈ s.record i, ∀ w ∈ r.waiters, w.state = .queued →
    w.deadline - s.now ≤ 60000#32
  stored : ∀ i : RecIx, ∀ r ∈ s.record i, ∀ w ∈ r.waiters,
    10#16 ≤ w.lease ∧ w.lease ≤ (s.settings w.port).maxLease
  guards : ∀ ch : Channel, (s.chan ch).guard = (s.cfg.effective.chan ch).guard ∧
    (s.chan ch).guard ≤ 10000#16 ∧
    ∀ deadline, (s.chan ch).state = .guard deadline →
      deadline - s.now ≤ (s.chan ch).guard.setWidth 32

/-- A state in which the part runs safely: every invariant holds. -/
def Safe (s : State) : Prop :=
  TokenInv s ∧ HoldingTokenInv s ∧ ClaimTableInv s ∧ GateInv s ∧ FloorInv s ∧ DeviceInv s ∧ LinkInv s ∧
    ConfigInv s ∧ DeadlineInv s

end Sys2Proof.Machine
end

