-- ==== Sys2Proof/Certificates/Slice0/Obligations.lean ====
section
/-! DEFINITION. The statements about the model. A host command is stated at a state in which the engine
takes it (State.takenTag, whose meaning CommandTakenWhen states); State.replyOnly is a command without
effect but its reply, and ClaimFrame, ResetCleared and BootSelected are the frames of Safety. -/

section Statements

open Sys2Proof Sys2Proof.Machine

/-! ### The machine -/

/-- One step with a row at the front of the queue is exec of the row with the queue's rest. -/
def Obligations.StepRunsFrontCommand : Prop :=
  ∀ (c : Instr) (rest : List Instr) (s : State),
    step { s with pending := c :: rest } = exec c { s with pending := rest }

/-- No row faults or is refused, and no row touches the queue. -/
def Obligations.ExecAnswersNext : Prop :=
  ∀ (c : Instr) (s : State), ∃ t, exec c s = .next t ∧ t.pending = s.pending

/-- The part as shipped, as it enters BOOT on its first POWER_ON. That reset stands at this moment,
with BOOT_END to come, is the model's choice (log 1). -/
def Obligations.ResetState : Prop :=
  let s := State.reset
  s.device = .boot ∧ s.hold = .none ∧ s.now = 0#32 ∧ s.served = 3 ∧ s.sessionCounter = 0#16 ∧
  s.pending = [] ∧ s.supply.cause = some .powerOn ∧
  (∀ i, s.record i = none) ∧ (∀ p i, s.slot p i = .free) ∧
  (∀ p, (s.port p).attached = false ∧ (s.port p).session = 0#16 ∧ (s.port p).sessionLost = true ∧
    (s.port p).slot = .empty ∧ (s.port p).lastTag = none ∧ (s.port p).notices = [] ∧
    (s.port p).seq = 0#8 ∧ (s.port p).frameError = false ∧ (s.port p).overrun = false) ∧
  s.tok = ⟨1#32, 1#32, .advancing, none, false, 1#32⟩ ∧
  (∀ ch, (s.chan ch).state = .unbound) ∧
  (∀ r : ProgRow, s.store.row r = blankRow) ∧
  s.store.engine = .idle ∧ s.store.advanceInput = none ∧ s.store.commitInput = none ∧
  s.cfg.effective = Image.factoryDefault ∧ s.cfg.defaulted = false ∧
  s.cfg.effectiveSeq = 0#16 ∧ s.cfg.storedSeq = 0#16 ∧ s.cfg.storeFrozen = false ∧
  s.cfg.staging = .idle ∧ s.cfg.owner = none ∧ s.cfg.lastResult = .none

/-- Every invariant holds at reset. -/
def Obligations.SafeAtReset : Prop := Safe State.reset

/-- When the engine takes a command: READY, no RESTART hold, the command the port has had accepted, and the
port the first, from the one after the port served last on, whose command is executing. Its reply fills the
port's slot, with the tag and the code of the command. A row of a command it does not take now changes
nothing: the model's choice (log 3). -/
def Obligations.CommandTakenWhen : Prop :=
  ∀ (s : State) (p : Port) (c : Instr) (code : Byte) (params : List Byte),
    wireOf c = some (p, code, params) →
    (∀ tag, s.takenTag p c = some tag ↔
      s.device = .ready ∧ s.hold = .none ∧ (s.port p).slot = .pending tag c ∧
        ∃ k : Fin 4, p = s.served + 1 + k ∧
          ∀ j : Fin 4, j < k → (s.port (s.served + 1 + j)).executing = false) ∧
    (∀ tag status fields, s.placeReply p tag c status fields =
      s.setPort p { s.port p with slot := .filled ⟨tag, code, status, false, fields⟩ }) ∧
    (s.takenTag p c = none → exec c s = .next s)

/-! ### Sessions -/

/-- A DETACHED port: HELLO, IDENT, TIME and STATUS are executed, every other command is answered
DETACHED and has no other effect. -/
def Obligations.DetachedRefusal : Prop :=
  ∀ (s : State) (p : Port) (tag : BitVec 4) (c : Instr) (code : Byte) (params : List Byte),
    wireOf c = some (p, code, params) → s.takenTag p c = some tag → (s.port p).attached = false →
    if c = .hello p ∨ c = .ident p ∨ c = .time p ∨ c = .status p then
      ∃ (t : State) (f : Fields), exec c s = .next (t.placeReply p tag c .ok f)
    else exec c s = .next (s.replyOnly p tag c .detached .none)

/-- HELLO and BYE. HELLO from a DETACHED port: the five steps, the reply, and nothing else; from an ATTACHED
port: its teardown, then the steps of the attach. BYE from an ATTACHED port: its teardown, then DETACHED
with session number 0; SESSION_LOST and the last tag stay. -/
def Obligations.HelloAndByeOutcome : Prop :=
  ∀ (s : State) (p : Port) (tag : BitVec 4),
    let n : Half := if s.sessionCounter = 65535#16 then 1#16 else s.sessionCounter + 1#16
    let attaches := fun t : State => exec (.hello p) s = .next ({ t with sessionCounter := n }.setPort p
      { t.port p with
        session := n, seq := 0#8, lastTag := none, sessionLost := false, attached := true,
        slot := .filled ⟨tag, 0x10#8, .ok, false, .session n s.tok.bootFloor⟩ })
    (s.takenTag p (.hello p) = some tag → (s.port p).attached = false → attaches { s with served := p }) ∧
    (s.takenTag p (.hello p) = some tag → (s.port p).attached = true →
      attaches (State.tearDown { s with served := p } p)) ∧
    (s.takenTag p (.bye p) = some tag → (s.port p).attached = true →
      let t := State.tearDown { s with served := p } p
      exec (.bye p) s = .next (t.setPort p
        { t.port p with
          attached := false, session := 0#16, slot := .filled ⟨tag, 0x11#8, .ok, false, .none⟩ }))

/-- EJECT from an ATTACHED port: its refusals in order, or the teardown of the target, which becomes
DETACHED with session number 0 and SESSION_LOST. -/
def Obligations.EjectOutcome : Prop :=
  ∀ (s : State) (p : Port) (tag : BitVec 4) (target : Byte),
    s.takenTag p (.eject p target) = some tag → (s.port p).attached = true →
    let right := (s.settings p).rights.revoke
    let refused := fun st => exec (.eject p target) s =
      .next (s.replyOnly p tag (.eject p target) st .none)
    (right = false → refused .noRight) ∧
    (right = true → (4 ≤ target.toNat ∨ target.toNat = p.val) → refused .badParam) ∧
    ∀ q : Port, target.toNat = q.val → q ≠ p → right = true →
      ((s.port q).attached = false → refused .notAttached) ∧
      ((s.port q).attached = true →
        let t := { s with served := p }.tearDown q
        exec (.eject p target) s = .next ((t.setPort q
          { t.port q with attached := false, session := 0#16, sessionLost := true }).placeReply p tag
            (.eject p target) .ok .none))

/-- Teardown: no holding and no waiter entry of the port is left, its queue is empty, its slots are FREE,
its open image is discarded. A record that lost a holding or its head has a pass, and one left without an
entry is retired; on every record the claims of the other ports stand, a waiter perhaps granted. The passes
run in increasing index order on the state u after every removal, and u is stated whole: no port, slot or
record but those of the port, and no channel but those of its EXCLUSIVE holdings, differs in it. The end of
its EXCLUSIVE holding on a bound key starts the guard, or opens the channel where the guard is 0. -/
def Obligations.TearDownRemovesClaims : Prop :=
  ∀ (s : State) (p : Port),
    let t := s.tearDown p
    (∀ i r, t.record i = some r → r.holder p = none ∧ r.waiter p = none) ∧
    (∀ i, t.slot p i = .free) ∧ (t.port p).notices = [] ∧
    t.cfg = (if s.cfg.staging = .opened ∧ s.cfg.owner = some p then
      { s.cfg with staging := .idle, owner := none, image := none } else s.cfg) ∧
    (∀ i, s.record i = none → t.record i = none) ∧
    (∀ i r, s.record i = some r →
      let left := { r.setHolder p none with waiters := r.waiters.filter fun w => w.port != p }
      if (r.holder p).isSome = true ∨ (∃ w, r.waiters.head? = some w ∧ w.port = p) then t.passDone i
      else t.record i = if left.isEmpty then none else some left) ∧
    (∀ i r, s.record i = some r → r.onePerPort →
      (∀ q h, q ≠ p → r.holder q = some h → ∃ r', t.record i = some r' ∧ r'.holder q = some h) ∧
      ∀ w ∈ r.waiters, w.port ≠ p → WaiterStands t i w s.now) ∧
    (∀ i r h ch, s.record i = some r → r.holder p = some h → h.mode = .exclusive →
      s.boundChannel r.key = some ch → EndReported s t r.key ch) ∧
    (∃ u : State,
      u = { s with
        cfg := t.cfg, table := u.table, slots := u.slots, ports := u.ports, chans := u.chans } ∧
      (∀ i, u.record i = (s.record i).map fun r =>
        { r.setHolder p none with waiters := r.waiters.filter fun w => w.port != p }) ∧
      (∀ k, u.slot p k = .free) ∧ u.port p = { s.port p with notices := [] } ∧
      (∀ q, q ≠ p → u.port q = s.port q ∧ ∀ k, u.slot q k = s.slot q k) ∧
      (∀ ch, u.chan ch =
        if ∃ i, ∃ r ∈ s.record i, ∃ h ∈ r.holder p, h.mode = .exclusive ∧ s.boundChannel r.key = some ch
        then (s.chan ch).ended s.now else s.chan ch) ∧
      t = (List.finRange 24).foldl (fun v i =>
        if (s.record i).any fun r => (r.holder p).isSome || r.waiters.head?.any fun w => w.port == p
        then v.grantPass i
        else if (v.record i).any fun r => r.isEmpty then v.setRecord i none else v) u) ∧
    ClaimFrame { s with cfg := t.cfg } t

/-! ### ACQUIRE -/

/-- The refusals of ACQUIRE, in their order: each is the reply alone. -/
def Obligations.AcquireRefused : Prop :=
  ∀ (s : State) (p : Port) (tag : BitVec 4) (key : Word) (mode : Byte) (lease wait : Half),
    let c := Instr.acquire p key mode lease wait
    let refused := fun st => exec c s = .next (s.replyOnly p tag c st .none)
    let set := s.settings p
    let bad := key = 0#32 ∨ (mode ≠ 1#8 ∧ mode ≠ 2#8) ∨ lease < 10#16 ∨ set.maxLease < lease ∨
      set.maxWait < wait
    s.takenTag p c = some tag → (s.port p).attached = true →
    (set.rights.acquire = false → refused .noRight) ∧
    (set.rights.acquire = true → bad → refused .badParam) ∧
    (set.rights.acquire = true → ¬bad → set.classMask.getLsbD (key >>> 28).toNat = false →
      refused .classDenied) ∧
    (set.rights.acquire = true → ¬bad → set.classMask.getLsbD (key >>> 28).toNat = true →
      (∀ i r, s.lookRecord key = some (i, r) → (r.holder p).isSome = true →
        refused .alreadyHeld) ∧
      (∀ i r, s.lookRecord key = some (i, r) → r.holder p = none → (r.waiter p).isSome = true →
        refused .alreadyWaiting) ∧
      ((∀ i r, s.lookRecord key = some (i, r) → r.holder p = none ∧ r.waiter p = none) →
        ((∀ k, s.slot p k ≠ .free) → refused .slotsExhausted) ∧
        ((∃ k, s.slot p k = .free) →
          (s.lookRecord key = none → (∀ j, (s.record j).isSome = true) → refused .tableFull) ∧
          (s.lookRecord key ≠ none ∨ (∃ j, s.record j = none) →
            (s.tok.state = .storeFault → refused .storeFault) ∧
            (s.tok.state = .tokensSpent → refused .tokensSpent)))))

/-- What the claim engine finds and tests. The record of a key, a port's holding or entry on it, the channel
a key is bound to. When a request or head that stands first is admissible: its mode compatible with the
holdings, the channel of a bound key in IDLE for EXCLUSIVE, and a token available, in NORMAL or ADVANCING
with G below F. What an ACQUIRE that passes its checks stands on: its mode; the lowest FREE slot; the record
of its key, or an empty one at the lowest free index. -/
def Obligations.SearchAdmissionAndPlace : Prop :=
  (∀ (s : State) (key : Word) (p : Port) (i : RecIx) (r : Record),
    (s.lookRecord key = some (i, r) ↔
      s.record i = some r ∧ r.key = key ∧ ∀ j, j < i → ∀ r' ∈ s.record j, r'.key ≠ key) ∧
    (s.findRecord key = some i ↔ ∃ r', s.lookRecord key = some (i, r')) ∧
    (∀ h, s.holdingOf p key = some (i, r, h) ↔
      s.lookRecord key = some (i, r) ∧ r.holder p = some h) ∧
    (∀ w, s.waitingOf p key = some (i, r, w) ↔
      s.lookRecord key = some (i, r) ∧ r.waiter p = some w) ∧
    (∀ w, r.waiter p = some w ↔ w.port = p ∧
      ∃ before after, r.waiters = before ++ w :: after ∧ ∀ v ∈ before, v.port ≠ p) ∧
    (r.noHolder = true ↔ ∀ q, r.holder q = none) ∧
    (r.isEmpty = true ↔ (∀ q, r.holder q = none) ∧ r.waiters = []) ∧
    Record.fresh key = ⟨key, Vector.replicate 4 none, []⟩ ∧
    (∀ ch, s.boundChannel key = some ch ↔ key ≠ 0#32 ∧ (s.cfg.effective.chan ch).key = key ∧
      ∀ c, c < ch → (s.cfg.effective.chan c).key ≠ key) ∧
    s.settings p = s.cfg.effective.port p ∧
    ∀ k, s.noticesNaming p k = (s.port p).notices.countP fun n => n.slot == k) ∧
  (∀ (s : State) (r : Record) (m : Mode),
    let compatible := (m = .exclusive → ∀ q, r.holder q = none) ∧
      (m = .shared → ∀ q h, r.holder q = some h → h.mode = .shared)
    let gateOpen := fun key => m = .exclusive →
      ∀ ch, s.boundChannel key = some ch → (s.chan ch).state = .idle
    (r.compatible m = true ↔ compatible) ∧
    (∀ key, s.gateOpen key m = true ↔ gateOpen key) ∧
    (s.admissible r m = true ↔ compatible ∧ gateOpen r.key ∧
      s.tok.G < s.tok.F ∧ (s.tok.state = .normal ∨ s.tok.state = .advancing))) ∧
  (∀ (set : PortSettings) (key : Word) (mode : Byte) (lease wait : Half) (m : Mode),
    acquireParams set key mode lease wait = .ok m ↔
      set.rights.acquire = true ∧ key ≠ 0#32 ∧
      (mode = 1#8 ∧ m = .exclusive ∨ mode = 2#8 ∧ m = .shared) ∧
      10#16 ≤ lease ∧ lease ≤ set.maxLease ∧ wait ≤ set.maxWait ∧
      set.classMask.getLsbD (key >>> 28).toNat = true) ∧
  ∀ (s : State) (p : Port) (key : Word) (pl : Place),
    s.acquirePlace p key = .ok pl ↔
      s.slot p pl.slot = .free ∧ (∀ k, k < pl.slot → s.slot p k ≠ .free) ∧
      (s.lookRecord key = some (pl.index, pl.record) ∧ pl.record.holder p = none ∧
          pl.record.waiter p = none ∨
        s.lookRecord key = none ∧ pl.record = Record.fresh key ∧ s.record pl.index = none ∧
          ∀ j, j < pl.index → (s.record j).isSome = true) ∧
      (s.tok.state = .normal ∨ s.tok.state = .advancing)

/-- ACQUIRE granted at once: the reply, the draw of the token with what it brings, the holding, the slot,
the channel of a bound key; no notice; nothing else. The row that an advance requested by the draw asks for
where no reserve row is active is the model's choice beside the table of R67 (log 23). -/
def Obligations.AcquireGrantedAtOnce : Prop :=
  ∀ (s : State) (p : Port) (tag : BitVec 4) (key : Word) (mode : Byte) (lease wait : Half) (m : Mode)
    (pl : Place),
    let c := Instr.acquire p key mode lease wait
    let deadline := s.now + lease.setWidth 32
    s.takenTag p c = some tag → (s.port p).attached = true →
    acquireParams (s.settings p) key mode lease wait = .ok m → s.acquirePlace p key = .ok pl →
    pl.record.waiters = [] → s.admissible pl.record m = true →
    ∃ t, exec c s = .next (t.placeReply p tag c .ok (.grant s.tok.G deadline pl.slot)) ∧
      ClaimFrame { s with served := p } t ∧ TokenDrawn s t ∧
      (∀ j, t.record j = if j = pl.index then
        some (pl.record.setHolder p (some ⟨m, s.tok.G, deadline, pl.slot⟩)) else s.record j) ∧
      (∀ q k, t.slot q k = if q = p ∧ k = pl.slot then .holding key m s.tok.G deadline
        else s.slot q k) ∧
      (∀ q, t.port q = s.port q) ∧
      (∀ ch, t.chan ch = if m = .exclusive ∧ s.boundChannel key = some ch then
        { s.chan ch with state := if (s.chan ch).ginh then .heldLow else .high } else s.chan ch)

/-- ACQUIRE that is not admissible and names a wait of 0: NO_TOKEN where tokens alone block, which sets
the demand flag of a unit in ADVANCING with G equal to F (03 section 3.1); BUSY otherwise, which leaves the
flag as it is, the model's reading (log 13); nothing else. -/
def Obligations.AcquireNotQueued : Prop :=
  ∀ (s : State) (p : Port) (tag : BitVec 4) (key : Word) (mode : Byte) (lease : Half) (m : Mode)
    (pl : Place),
    let c := Instr.acquire p key mode lease 0#16
    s.takenTag p c = some tag → (s.port p).attached = true →
    acquireParams (s.settings p) key mode lease 0#16 = .ok m → s.acquirePlace p key = .ok pl →
    ¬(pl.record.waiters = [] ∧ s.admissible pl.record m = true) →
    let tokensAlone := pl.record.waiters = [] ∧ pl.record.compatible m = true ∧
      s.gateOpen key m = true
    (¬tokensAlone → exec c s = .next (s.replyOnly p tag c .busy .none)) ∧
    (tokensAlone → exec c s = .next (State.replyOnly
      { s with tok := { s.tok with
          demand := if s.tok.G = s.tok.F ∧ s.tok.state = .advancing then true else s.tok.demand } }
      p tag c .noToken .none))

/-- ACQUIRE that is not admissible and names a wait: the entry at the tail, RESERVED on an empty queue
where only the gate or tokens block and QUEUED otherwise, its slot with it; nothing else but the demand
flag of a RESERVED entry held back by G equal to F in ADVANCING (03 section 3.1). That a QUEUED entry leaves
the flag as it is, and a RESERVED one that its gate blocks as well sets it, is the model's reading
(log 13). -/
def Obligations.AcquireQueued : Prop :=
  ∀ (s : State) (p : Port) (tag : BitVec 4) (key : Word) (mode : Byte) (lease wait : Half) (m : Mode)
    (pl : Place),
    let c := Instr.acquire p key mode lease wait
    let deadline := s.now + wait.setWidth 32
    s.takenTag p c = some tag → (s.port p).attached = true → wait ≠ 0#16 →
    acquireParams (s.settings p) key mode lease wait = .ok m → s.acquirePlace p key = .ok pl →
    ¬(pl.record.waiters = [] ∧ s.admissible pl.record m = true) →
    let queued := fun (s' : State) (st : WaiterState) (sl : Slot) => exec c s =
      .next (((s'.setRecord pl.index (some { pl.record with
          waiters := pl.record.waiters ++ [⟨p, m, lease, deadline, st, pl.slot⟩] })).setSlot p pl.slot
        sl).replyOnly p tag c .queued (.slot pl.slot))
    (¬(pl.record.waiters = [] ∧ pl.record.compatible m = true) →
      queued s .queued (.waiting key m deadline lease)) ∧
    (pl.record.waiters = [] ∧ pl.record.compatible m = true →
      queued { s with tok := { s.tok with
          demand := if s.tok.G = s.tok.F ∧ s.tok.state = .advancing then true else s.tok.demand } }
        .reserved (.reserved key m deadline lease))

/-! ### Commands on a claim -/

/-- RELEASE from an ATTACHED port: NOT_HELD, BAD_TOKEN, or the holding ends without a notice, its slot FREE
or PINNED, the channel of a bound key told of the end of an EXCLUSIVE holding, and then the pass, which
touches that record alone. The port is no waiter beside its holding (ClaimTableInvariantKept). -/
def Obligations.ReleaseOutcome : Prop :=
  ∀ (s : State) (p : Port) (tag : BitVec 4) (key token : Word),
    let c := Instr.release p key token
    let refused := fun st => exec c s = .next (s.replyOnly p tag c st .none)
    s.takenTag p c = some tag → (s.port p).attached = true →
    (s.holdingOf p key = none → refused .notHeld) ∧
    ∀ i r h, s.holdingOf p key = some (i, r, h) →
      (token = 0#32 ∨ token ≠ h.token → refused .badToken) ∧
      (token ≠ 0#32 → token = h.token → r.waiter p = none →
        let sl : Slot := if s.noticesNaming p h.slot = 0 then .free else .pinned key h.token
        let t := (State.holdingGone { s with served := p } i r p h sl).grantPass i
        exec c s = .next (t.placeReply p tag c .ok .none) ∧
        ClaimFrame { s with served := p } t ∧ t.passDone i ∧
        (∀ r', t.record i = some r' → r'.key = key ∧ r'.holder p = none) ∧
        (∀ j, j ≠ i → t.record j = s.record j) ∧
        t.slot p h.slot = sl ∧ (∀ k, k ≠ h.slot → t.slot p k = s.slot p k) ∧ t.port p = s.port p ∧
        (∀ q, q ≠ p → r.waiter q = none → t.port q = s.port q ∧ ∀ k, t.slot q k = s.slot q k) ∧
        (∀ ch, s.boundChannel key = some ch → h.mode = .exclusive → EndReported s t key ch) ∧
        (∀ ch, s.boundChannel key ≠ some ch → t.chan ch = s.chan ch))

/-- CANCEL from an ATTACHED port: NOT_WAITING, or the entry leaves without a notice, its slot FREE, and if it
was the head a pass runs, which touches that record alone. -/
def Obligations.CancelOutcome : Prop :=
  ∀ (s : State) (p : Port) (tag : BitVec 4) (key : Word),
    let c := Instr.cancel p key
    s.takenTag p c = some tag → (s.port p).attached = true →
    (s.waitingOf p key = none → exec c s = .next (s.replyOnly p tag c .notWaiting .none)) ∧
    ∀ i r w, s.waitingOf p key = some (i, r, w) →
      let gone := State.entryGone { s with served := p } i r p w.slot .free
      let head := ∃ v, r.waiters.head? = some v ∧ v.port = p
      (¬head → exec c s = .next (gone.placeReply p tag c .ok .none)) ∧
      (head →
        let t := gone.grantPass i
        exec c s = .next (t.placeReply p tag c .ok .none) ∧
        ClaimFrame { s with served := p } t ∧ t.passDone i ∧
        (∀ r', t.record i = some r' →
          r'.key = key ∧ r'.waiter p = none ∧ r'.holder p = r.holder p) ∧
        (∀ j, j ≠ i → t.record j = s.record j) ∧
        t.slot p w.slot = .free ∧ (∀ k, k ≠ w.slot → t.slot p k = s.slot p k) ∧
        t.port p = s.port p ∧
        (∀ q, q ≠ p → r.waiter q = none →
          t.port q = s.port q ∧ ∀ k, t.slot q k = s.slot q k) ∧
        (∀ ch, s.boundChannel key ≠ some ch → t.chan ch = s.chan ch))

/-- REVOKE from an ATTACHED port: its refusals in order, or every targeted claim is removed, each port with
one notice of its own and the claim's slot PINNED, the channel of a bound key told of the end of an EXCLUSIVE
holding; then one pass, on the state u after the removals, which is stated whole: no port, slot or record but
those of the removed claims, and no channel but that of a removed EXCLUSIVE holding, differs in it. The claims
that are not targeted stand, a waiter perhaps granted, and no other slot, record or channel moves. Where the
one claim removed is a waiter behind the head no pass runs: the model follows 01 section 1.3 there (log 33).
The record names no port twice (ClaimTableInvariantKept). -/
def Obligations.RevokeOutcome : Prop :=
  ∀ (s : State) (p : Port) (tag : BitVec 4) (key : Word) (target : Byte),
    let c := Instr.revoke p key target
    let refused := fun st => exec c s = .next (s.replyOnly p tag c st .none)
    let right := (s.settings p).rights.revoke
    let inRange := key ≠ 0#32 ∧ (target.toNat < 4 ∨ target = 0xFF#8)
    let targeted := fun q : Port => target = 0xFF#8 ∨ target.toNat = q.val
    s.takenTag p c = some tag → (s.port p).attached = true →
    (right = false → refused .noRight) ∧
    (right = true → ¬inRange → refused .badParam) ∧
    (right = true → inRange → s.lookRecord key = none → refused .notHeld) ∧
    ∀ i r, right = true → inRange → s.lookRecord key = some (i, r) →
      let revoked := fun q : Port => targeted q ∧ (r.holder q ≠ none ∨ r.waiter q ≠ none)
      ((∀ q, targeted q → r.holder q = none ∧ r.waiter q = none) → refused .notHeld) ∧
      ((∃ q, targeted q ∧ (r.holder q ≠ none ∨ r.waiter q ≠ none)) → r.onePerPort →
        ∃ t n, exec c s = .next (t.placeReply p tag c .ok (.removed n)) ∧
          ClaimFrame { s with served := p } t ∧
          n = (List.finRange 4).countP (fun q => decide (targeted q) &&
            ((r.holder q).isSome || (r.waiter q).isSome)) ∧
          (∀ r', t.record i = some r' → r'.key = key ∧
            ∀ q, targeted q → r'.holder q = none ∧ r'.waiter q = none) ∧
          (∀ j, j ≠ i → t.record j = s.record j) ∧
          (∀ q h, targeted q → r.holder q = some h →
            t.slot q h.slot = .pinned key h.token ∧
            (t.port q).notices = (s.port q).notices ++
              [⟨(s.port q).seq, .revoked, key, h.slot, h.token, .none, s.now⟩] ∧
            (t.port q).seq = (s.port q).seq + 1#8) ∧
          (∀ q w, targeted q → r.waiter q = some w →
            t.slot q w.slot = .pinned key 0#32 ∧
            (t.port q).notices = (s.port q).notices ++
              [⟨(s.port q).seq, .withdrawn, key, w.slot, 0#32, .revoked, s.now⟩] ∧
            (t.port q).seq = (s.port q).seq + 1#8) ∧
          (∀ q, r.holder q = none → r.waiter q = none →
            t.port q = s.port q ∧ ∀ k, t.slot q k = s.slot q k) ∧
          (∀ q k, (∀ h, r.holder q = some h → h.slot ≠ k) → (∀ w, r.waiter q = some w → w.slot ≠ k) →
            t.slot q k = s.slot q k) ∧
          (∀ q h, ¬targeted q → r.holder q = some h →
            t.port q = s.port q ∧ ∃ r', t.record i = some r' ∧ r'.holder q = some h) ∧
          (∀ w ∈ r.waiters, ¬targeted w.port → WaiterStands t i w s.now) ∧
          (∀ q h ch, targeted q → r.holder q = some h → h.mode = .exclusive →
            s.boundChannel key = some ch → EndReported s t key ch) ∧
          (∀ ch, s.boundChannel key ≠ some ch → t.chan ch = s.chan ch) ∧
          ((∃ q, targeted q ∧ (r.holder q ≠ none ∨ ∃ w, r.waiters.head? = some w ∧ w.port = q)) →
            t.passDone i ∧ ∃ (u : State) (left : Record), t = u.grantPass i ∧
              u = { s with
                served := p, table := u.table, slots := u.slots, ports := u.ports, chans := u.chans } ∧
              u.record i = some left ∧ left.key = key ∧
              (left.waiters = r.waiters.filter fun w => !decide (targeted w.port)) ∧
              (∀ q, left.holder q = if targeted q then none else r.holder q) ∧
              (∀ j, j ≠ i → u.record j = s.record j) ∧
              (∀ q, u.port q = if revoked q then t.port q else s.port q) ∧
              (∀ q k, u.slot q k = if revoked q then t.slot q k else s.slot q k) ∧
              ∀ ch, u.chan ch =
                if ∃ q, targeted q ∧ ∃ h ∈ r.holder q, h.mode = .exclusive ∧ s.boundChannel key = some ch
                then (s.chan ch).ended s.now else s.chan ch) ∧
          (∀ q w, target ≠ 0xFF#8 → targeted q → r.holder q = none → r.waiter q = some w →
            (∀ v, r.waiters.head? = some v → v.port ≠ q) →
            t.record i = some { r with waiters := r.waiters.filter fun v => v.port != q } ∧
            t.tok = s.tok ∧ t.store = s.store ∧ t.faultSweep = s.faultSweep ∧ t.chans = s.chans ∧
            (∀ q', q' ≠ q → t.port q' = s.port q') ∧
            ∀ q' k, q' ≠ q ∨ k ≠ w.slot → t.slot q' k = s.slot q' k))

/-- RENEW from an ATTACHED port: its refusals in order, or the lease deadline moves in the holding and
in its slot, and nothing else. VERIFY: BAD_PARAM for a key or a token of 0; VALID for the token of a holding
of the key, FUTURE from G on, STALE below; nothing changes. -/
def Obligations.RenewAndVerifyOutcome : Prop :=
  ∀ (s : State) (p : Port) (tag : BitVec 4) (key token : Word),
    (∀ lease : Half,
      let c := Instr.renew p key token lease
      let refused := fun st => exec c s = .next (s.replyOnly p tag c st .none)
      let inRange := 10#16 ≤ lease ∧ lease ≤ (s.settings p).maxLease
      let deadline := s.now + lease.setWidth 32
      s.takenTag p c = some tag →
      ((s.port p).attached = false → refused .detached) ∧
      ((s.port p).attached = true → ¬inRange → refused .badParam) ∧
      ((s.port p).attached = true → inRange → s.holdingOf p key = none → refused .notHeld) ∧
      ∀ i r h, (s.port p).attached = true → inRange → s.holdingOf p key = some (i, r, h) →
        (token = 0#32 ∨ token ≠ h.token → refused .badToken) ∧
        (token ≠ 0#32 → token = h.token →
          exec c s = .next (((s.setRecord i (some (r.setHolder p
              (some { h with deadline := deadline })))).setSlot p h.slot
            (.holding r.key h.mode h.token deadline)).replyOnly p tag c .ok (.deadline deadline)))) ∧
    let c := Instr.verify p key token
    let reply := fun st f => exec c s = .next (s.replyOnly p tag c st f)
    s.takenTag p c = some tag →
    ((s.port p).attached = false → reply .detached .none) ∧
    ((s.port p).attached = true → key = 0#32 ∨ token = 0#32 → reply .badParam .none) ∧
    ((s.port p).attached = true → key ≠ 0#32 → token ≠ 0#32 →
      (∀ i r q h, s.lookRecord key = some (i, r) → r.holder q = some h → h.token = token →
        (∀ q' h', q' ≠ q → r.holder q' = some h' → h'.token ≠ token) →
        reply .valid (.holder q h.mode)) ∧
      ((∀ i r q h, s.lookRecord key = some (i, r) → r.holder q = some h → h.token ≠ token) →
        (s.tok.G ≤ token → reply .future .none) ∧ (token < s.tok.G → reply .stale .none)))

/-! ### Grants and expiries -/

/-- The grant of a head waiter: the queue, the draw with what it brings, the holding, the slot, the GRANTED
notice, the channel, and nothing else. The row that an advance requested by the draw asks for where no
reserve row is active is the model's choice beside the table of R67 (log 23). -/
def Obligations.GrantHeadEffect : Prop :=
  ∀ (s : State) (i : RecIx) (r : Record) (w : Waiter) (rest : List Waiter),
    s.record i = some r → r.waiters = w :: rest → s.admissible r w.mode = true →
    let t := s.grantHead i r w rest
    let deadline := s.now + w.lease.setWidth 32
    ClaimFrame s t ∧ TokenDrawn s t ∧
    (∀ j, t.record j = if j = i then
      some ({ r with waiters := rest }.setHolder w.port (some ⟨w.mode, s.tok.G, deadline, w.slot⟩))
      else s.record j) ∧
    (∀ q k, t.slot q k = if q = w.port ∧ k = w.slot then .holding r.key w.mode s.tok.G deadline
      else s.slot q k) ∧
    (∀ q, t.port q = if q = w.port then
      { s.port q with
        notices := (s.port q).notices ++
          [⟨(s.port q).seq, .granted, r.key, w.slot, s.tok.G, .none, s.now⟩]
        seq := (s.port q).seq + 1#8 } else s.port q) ∧
    (∀ ch, t.chan ch = if w.mode = .exclusive ∧ s.boundChannel r.key = some ch then
      { s.chan ch with state := if (s.chan ch).ginh then .heldLow else .high } else s.chan ch)

/-- A grant pass: an admissible head is granted and the pass goes on with the next; at a head that is not
admissible it stops, RESERVED where only the gate or tokens block it; a record without an entry is
retired. The pass touches its record alone. That the test of a head sets the demand flag exactly where its
mode is compatible is the model's reading (log 13). -/
def Obligations.GrantPassStops : Prop :=
  ∀ (s : State) (i : RecIx),
    let t := s.grantPass i
    ClaimFrame s t ∧ (∀ j, j ≠ i → t.record j = s.record j) ∧ t.passDone i ∧
    (s.record i = none → t = s) ∧
    ∀ r, s.record i = some r →
      (r.waiters = [] → t = if r.isEmpty then s.setRecord i none else s) ∧
      ∀ w rest, r.waiters = w :: rest →
        (s.admissible r w.mode = true → t = (s.grantHead i r w rest).grantPass i) ∧
        (r.compatible w.mode = false → t = s) ∧
        (s.admissible r w.mode = false → r.compatible w.mode = true →
          let noted := { s with tok := { s.tok with
            demand := if s.tok.G = s.tok.F ∧ s.tok.state = .advancing then true else s.tok.demand } }
          (w.state = .reserved → t = noted) ∧
          (w.state = .queued → t =
            (noted.setRecord i (some { r with waiters := { w with state := .reserved } :: rest })).setSlot
              w.port w.slot (.reserved r.key w.mode w.deadline w.lease)))

/-- LEASE_EXPIRY: a holding whose deadline is reached lapses with its LAPSED notice, its slot PINNED, the
channel of a bound key told of the end of an EXCLUSIVE holding, and then the pass, which touches that record
alone; otherwise nothing changes (log 4). The port is no waiter beside its holding
(ClaimTableInvariantKept). -/
def Obligations.LeaseExpiryLapses : Prop :=
  ∀ (s : State) (p : Port) (key : Word),
    (s.device ≠ .ready ∨ s.holdingOf p key = none → exec (.leaseExpiry p key) s = .next s) ∧
    ∀ i r h, s.device = .ready → s.holdingOf p key = some (i, r, h) →
      (h.deadline ≠ s.now → exec (.leaseExpiry p key) s = .next s) ∧
      (h.deadline = s.now → r.waiter p = none →
        let u : PortUnit := { s.port p with
          notices := (s.port p).notices ++
            [⟨(s.port p).seq, .lapsed, key, h.slot, h.token, .none, s.now⟩]
          seq := (s.port p).seq + 1#8 }
        let t := (State.holdingGone (s.setPort p u) i r p h (.pinned key h.token)).grantPass i
        exec (.leaseExpiry p key) s = .next t ∧ ClaimFrame s t ∧ t.passDone i ∧
        (∀ r', t.record i = some r' → r'.key = key ∧ r'.holder p = none) ∧
        (∀ j, j ≠ i → t.record j = s.record j) ∧
        t.slot p h.slot = .pinned key h.token ∧ (∀ k, k ≠ h.slot → t.slot p k = s.slot p k) ∧
        t.port p = u ∧
        (∀ q, q ≠ p → r.waiter q = none →
          t.port q = s.port q ∧ ∀ k, t.slot q k = s.slot q k) ∧
        (∀ ch, s.boundChannel key ≠ some ch → t.chan ch = s.chan ch) ∧
        (∀ ch, s.boundChannel key = some ch → h.mode = .exclusive → EndReported s t key ch))

/-- WAIT_EXPIRY: a QUEUED entry whose deadline is reached is withdrawn with its notice, its slot PINNED, and
if it was the head a pass runs, which touches that record alone; a RESERVED entry and a deadline that is
not reached change nothing (log 4). -/
def Obligations.WaitExpiryWithdraws : Prop :=
  ∀ (s : State) (p : Port) (key : Word),
    (s.device ≠ .ready ∨ s.waitingOf p key = none → exec (.waitExpiry p key) s = .next s) ∧
    ∀ i r w, s.device = .ready → s.waitingOf p key = some (i, r, w) →
      (w.state = .reserved ∨ w.deadline ≠ s.now → exec (.waitExpiry p key) s = .next s) ∧
      (w.state = .queued → w.deadline = s.now →
        let u : PortUnit := { s.port p with
          notices := (s.port p).notices ++
            [⟨(s.port p).seq, .withdrawn, key, w.slot, 0#32, .waitExpired, s.now⟩]
          seq := (s.port p).seq + 1#8 }
        let gone := State.entryGone (s.setPort p u) i r p w.slot (.pinned key 0#32)
        let head := ∃ v, r.waiters.head? = some v ∧ v.port = p
        (¬head → exec (.waitExpiry p key) s = .next gone) ∧
        (head →
          let t := gone.grantPass i
          exec (.waitExpiry p key) s = .next t ∧ ClaimFrame s t ∧ t.passDone i ∧
          (∀ r', t.record i = some r' →
            r'.key = key ∧ r'.waiter p = none ∧ r'.holder p = r.holder p) ∧
          (∀ j, j ≠ i → t.record j = s.record j) ∧
          t.slot p w.slot = .pinned key 0#32 ∧ (∀ k, k ≠ w.slot → t.slot p k = s.slot p k) ∧
          t.port p = u ∧
          (∀ q, q ≠ p → r.waiter q = none →
            t.port q = s.port q ∧ ∀ k, t.slot q k = s.slot q k) ∧
          (∀ ch, s.boundChannel key ≠ some ch → t.chan ch = s.chan ch)))

/-- The gate unit's events. GUARD_DEADLINE: a channel in GUARD whose deadline is reached enters IDLE, and a
pass runs on the record of its key if there is one; otherwise nothing changes (log 4). GINH_CHANGE: outside
IN_RESET a bound channel takes the level, HIGH and HELD_LOW following it; no other state moves, and nothing
else changes but the level of the pin (log 7). -/
def Obligations.GateEvents : Prop :=
  ∀ (s : State) (ch : Channel) (level : Bool),
    let idle := s.setChan ch { s.chan ch with state := .idle }
    (s.device ≠ .ready ∨ (s.chan ch).state ≠ .guard s.now → exec (.guardDeadline ch) s = .next s) ∧
    (s.device = .ready → (s.chan ch).state = .guard s.now →
      (s.findRecord (s.chan ch).key = none → exec (.guardDeadline ch) s = .next idle) ∧
      ∀ i, s.findRecord (s.chan ch).key = some i →
        exec (.guardDeadline ch) s = .next (idle.grantPass i)) ∧
    (s.device = .inReset ∨ (s.chan ch).state = .unbound →
      exec (.ginhChange ch level) s = .next { s with ginhPin := level }) ∧
    (s.device ≠ .inReset → (s.chan ch).state ≠ .unbound →
      exec (.ginhChange ch level) s = .next ({ s with ginhPin := level }.setChan ch
        { s.chan ch with
          ginh := level
          state := if (s.chan ch).state = ChannelState.high ∨
              (s.chan ch).state = ChannelState.heldLow then
            (if level then .heldLow else .high) else (s.chan ch).state }))

/-- RESERVED_HEAD_PASS: in a report of availability, the pass on the next record whose head is
RESERVED, in increasing index order. How far a report has come is the model's own state (log 18). -/
def Obligations.ReservedHeadPassRuns : Prop :=
  ∀ (s : State),
    (∀ i, s.headReserved i = true ↔
      ∃ r w rest, s.record i = some r ∧ r.waiters = w :: rest ∧ w.state = .reserved) ∧
    (s.device ≠ .ready ∨ s.availSweep = none → exec .reservedHeadPass s = .next s) ∧
    ∀ start, s.device = .ready → s.availSweep = some start →
      ((∀ i : RecIx, start ≤ i.val → s.headReserved i = false) →
        exec .reservedHeadPass s = .next { s with availSweep := none }) ∧
      ∀ i : RecIx, start ≤ i.val → s.headReserved i = true →
        (∀ j : RecIx, start ≤ j.val → j < i → s.headReserved j = false) →
        let t := s.grantPass i
        ((∃ j, i < j ∧ t.headReserved j = true) → exec .reservedHeadPass s =
          .next { t with availSweep := some (i.val + 1) }) ∧
        ((∀ j, i < j → t.headReserved j = false) → exec .reservedHeadPass s =
          .next { t with availSweep := none })

/-- TOKEN_FAULT_WITHDRAWAL: in a report of a fault, every waiter of the next record that has one is
withdrawn with its notice and its slot PINNED, and the record is retired if it has no holding; nothing else
changes. How far a report has come is the model's own state (log 18). -/
def Obligations.TokenFaultWithdrawalRuns : Prop :=
  ∀ (s : State),
    (∀ i, s.hasWaiter i = true ↔ ∃ r, s.record i = some r ∧ r.waiters ≠ []) ∧
    (s.device ≠ .ready ∨ s.faultSweep = none → exec .tokenFaultWithdrawal s = .next s) ∧
    ∀ start, s.device = .ready → s.faultSweep = some start →
      ((∀ i : RecIx, start ≤ i.val → s.hasWaiter i = false) →
        exec .tokenFaultWithdrawal s = .next { s with faultSweep := none }) ∧
      ∀ (i : RecIx) (r : Record), start ≤ i.val → s.record i = some r → r.waiters ≠ [] →
        (∀ j : RecIx, start ≤ j.val → j < i → s.hasWaiter j = false) → r.onePerPort →
        (s.tok.state = .storeFault ∨ s.tok.state = .tokensSpent) →
        ∃ t, exec .tokenFaultWithdrawal s = .next t ∧
          ClaimFrame s t ∧ t.tok = s.tok ∧ t.store = s.store ∧ (∀ ch, t.chan ch = s.chan ch) ∧
          t.record i = (if r.noHolder then none else some { r with waiters := [] }) ∧
          (∀ j, j ≠ i → t.record j = s.record j) ∧
          (∀ w ∈ r.waiters, t.slot w.port w.slot = .pinned r.key 0#32 ∧
            (∀ k, k ≠ w.slot → t.slot w.port k = s.slot w.port k) ∧
            t.port w.port = { s.port w.port with
              notices := (s.port w.port).notices ++ [⟨(s.port w.port).seq, .withdrawn, r.key, w.slot,
                0#32, if s.tok.state = .storeFault then .storeFault else .tokensSpent, s.now⟩]
              seq := (s.port w.port).seq + 1#8 }) ∧
          (∀ q, r.waiter q = none → t.port q = s.port q ∧ ∀ k, t.slot q k = s.slot q k) ∧
          t.faultSweep = (if ∃ j, i < j ∧ s.hasWaiter j = true then some (i.val + 1) else none)

/-- TICK. What is due at now: a holding whose deadline equals now, a QUEUED entry whose deadline does, a
channel in GUARD whose deadline does, and a RESTART hold that has had its tick; to take one is the row of its
event. Outside READY TICK does nothing but end a RESTART's tick (log 32); in READY now advances by one, and
by no other row. With no deadline due nothing else changes but that a RESTART hold that runs is due (log 17);
one event that is due is taken first, and of several one is taken and TICK goes on with the rest (log 5).
After a TICK from READY to READY nothing stands with a deadline of the old now. That TICK does not itself
begin the reset of a hold, but leaves it due, and that due events are taken before now advances, is the
model's choice. The premises are invariants (ClaimTableInvariantKept, DeadlineInvariantKept). -/
def Obligations.TickAdvances : Prop :=
  ∀ (s : State),
    (∀ e, e ∈ s.dueEvents ↔
      (∃ i r p h, s.record i = some r ∧ r.holder p = some h ∧ h.deadline = s.now ∧ e = .lease p r.key) ∨
      (∃ i r, s.record i = some r ∧
        ∃ w ∈ r.waiters, w.state = .queued ∧ w.deadline = s.now ∧ e = .wait w.port r.key) ∨
      (∃ ch, (s.chan ch).state = .guard s.now ∧ e = .guard ch) ∨
      s.hold = .due ∧ e = .holdEnd) ∧
    (s.device = .ready →
      (∀ p key, exec (.leaseExpiry p key) s = .next (s.takeDue (.lease p key))) ∧
      (∀ p key, exec (.waitExpiry p key) s = .next (s.takeDue (.wait p key))) ∧
      (∀ ch, exec (.guardDeadline ch) s = .next (s.takeDue (.guard ch))) ∧
      (s.hold ≠ .none → exec .restartHoldEnd s = .next (s.takeDue .holdEnd))) ∧
    (s.device ≠ .ready → exec .tick s = .next { s with restartTick := false }) ∧
    (s.device = .ready → s.dueEvents = [] → exec .tick s =
      .next { s with
        now := s.now + 1#32
        hold := if s.hold = .holding then .due else s.hold
        restartTick := false }) ∧
    (∀ e, s.device = .ready → s.dueEvents = [e] →
      let t := { s.takeDue e with restartTick := false }
      (t.device = .ready → exec .tick s = .next
        { t with now := t.now + 1#32, hold := if t.hold = .holding then .due else t.hold }) ∧
      (t.device ≠ .ready → exec .tick s = .next t)) ∧
    (s.device = .ready → 2 ≤ s.dueEvents.length → ClaimTableInv s → DeadlineInv s →
      ∃ e ∈ s.dueEvents, exec .tick s = exec .tick ({ s with free := s.free + 1 }.takeDue e)) ∧
    (∀ t, exec .tick s = .next t → s.device = .ready → t.device = .ready →
      t.now = s.now + 1#32 ∧
      (ClaimTableInv s → DeadlineInv s →
        (∀ i r p h, t.record i = some r → r.holder p = some h → h.deadline ≠ s.now) ∧
        (∀ i r, t.record i = some r → ∀ w ∈ r.waiters, w.state = .queued → w.deadline ≠ s.now) ∧
        ∀ ch, (t.chan ch).state ≠ .guard s.now)) ∧
    ∀ c t, c ≠ .tick → exec c s = .next t →
      t.now = s.now ∨ (t.now = 0#32 ∧ t.device ≠ .ready)

/-! ### Notices and queries -/

/-- MYSLOT: the slot as it stands with the number of notices that name it, and no other effect; an index
above 7 is BAD_PARAM. PEEK_NOTICE: NO_NOTICE, or the oldest notice with the number of notices; nothing
changes. ACK_NOTICE: NO_NOTICE; BAD_SEQ; or the oldest notice leaves, and a PINNED slot that no other notice
names becomes FREE. -/
def Obligations.SlotAndNoticeCommands : Prop :=
  ∀ (s : State) (p : Port) (tag : BitVec 4),
    (∀ index : Byte, s.takenTag p (.mySlot p index) = some tag →
      let reply := fun st f => exec (.mySlot p index) s =
        .next (s.replyOnly p tag (.mySlot p index) st f)
      ((s.port p).attached = false → reply .detached .none) ∧
      ((s.port p).attached = true → 8 ≤ index.toNat → reply .badParam .none) ∧
      ∀ i : SlotIx, (s.port p).attached = true → i.val = index.toNat →
        reply .ok (.mySlot (s.slot p i) ((s.port p).notices.countP fun n => n.slot == i))) ∧
    ∀ (seq : Byte) (c : Instr),
      c = .peekNotice p ∨ c = .ackNotice p seq →
      let reply := fun st f => exec c s = .next (s.replyOnly p tag c st f)
      s.takenTag p c = some tag →
      ((s.port p).attached = false → reply .detached .none) ∧
      ((s.port p).attached = true → (s.port p).notices = [] → reply .noNotice .none) ∧
      ∀ n rest, (s.port p).attached = true → (s.port p).notices = n :: rest →
        (c = .peekNotice p → reply .ok (.notice n (rest.length + 1))) ∧
        (c = .ackNotice p seq → seq ≠ n.seq → reply .badSeq .none) ∧
        (c = .ackNotice p seq → seq = n.seq →
          let freed := (∃ key token, s.slot p n.slot = .pinned key token) ∧ ∀ m ∈ rest, m.slot ≠ n.slot
          let t := s.setPort p { s.port p with notices := rest }
          (freed → exec c s = .next ((t.setSlot p n.slot .free).replyOnly p tag c .ok
            (.remaining rest.length .free))) ∧
          (¬freed → exec c s = .next (t.replyOnly p tag c .ok
            (.remaining rest.length (s.slot p n.slot)))))

/-- LOOKUP and LIST from an ATTACHED port: their refusals in order, or the record with the mode of its
holdings, its holders in port order, its waiters oldest first and the bound channel; tokens are 0 without
INSPECT; nothing changes. The remaining lease is 0 to 60000 by DeadlineInvariantKept. -/
def Obligations.LookupListOutcome : Prop :=
  ∀ (s : State) (p : Port) (tag : BitVec 4),
    let set := s.settings p
    let view := fun (inspect : Bool) (i : RecIx) (r : Record) => Fields.record
      { key := r.key, index := i
        mode :=
          if ∃ q, ∃ h ∈ r.holder q, h.mode = .exclusive then some .exclusive
          else if ∃ q, (r.holder q).isSome = true then some .shared else none
        holders := (List.finRange 4).filterMap fun q => (r.holder q).map fun h =>
          ⟨q, h.mode, h.deadline - s.now, if inspect then h.token else 0#32⟩
        waiters := r.waiters.map fun w => ⟨w.port, w.mode, w.state⟩
        channel := (s.boundChannel r.key).map fun ch => (ch, (s.chan ch).state) }
    (s.port p).attached = true →
    (∀ key, s.takenTag p (.lookup p key) = some tag →
      let reply := fun st f => exec (.lookup p key) s = .next (s.replyOnly p tag (.lookup p key) st f)
      let seen := set.rights.inspect = true ∨ set.classMask.getLsbD (key >>> 28).toNat = true
      (key = 0#32 → reply .badParam .none) ∧
      (key ≠ 0#32 → ¬seen → reply .classDenied .none) ∧
      (key ≠ 0#32 → seen → s.lookRecord key = none → reply .noRecord .none) ∧
      ∀ i r, key ≠ 0#32 → seen → s.lookRecord key = some (i, r) →
        reply .ok (view set.rights.inspect i r)) ∧
    (∀ start, s.takenTag p (.list p start) = some tag →
      let reply := fun st f => exec (.list p start) s = .next (s.replyOnly p tag (.list p start) st f)
      (set.rights.inspect = false → reply .noRight .none) ∧
      (set.rights.inspect = true → (∀ i : RecIx, start.toNat ≤ i.val → s.record i = none) →
        reply .endOfTable .none) ∧
      ∀ (i : RecIx) r, set.rights.inspect = true → start.toNat ≤ i.val → s.record i = some r →
        (∀ j : RecIx, start.toNat ≤ j.val → j < i → s.record j = none) → reply .ok (view true i r))

/-- TIME, STATUS and IDENT from an ATTACHED or a DETACHED port, and STAGE_STATUS from an ATTACHED one:
the values as they stand, and nothing changes. -/
def Obligations.TimeStatusIdentReplies : Prop :=
  ∀ (s : State) (p : Port) (tag : BitVec 4),
    (s.takenTag p (.time p) = some tag →
      exec (.time p) s = .next (s.replyOnly p tag (.time p) .ok (.now s.now))) ∧
    (s.takenTag p (.ident p) = some tag →
      exec (.ident p) s = .next (s.replyOnly p tag (.ident p) .ok (.ident s.factory))) ∧
    (s.takenTag p (.status p) = some tag →
      ∃ v : StatusView, exec (.status p) s = .next (s.replyOnly p tag (.status p) .ok (.status v)) ∧
        v.token = s.tok.state ∧ v.G = s.tok.G ∧ v.F = s.tok.F ∧
        v.records = (List.finRange 24).countP (fun i => (s.record i).isSome) ∧
        (∀ ch : Channel, v.chans[ch] = (s.chan ch).state) ∧ v.supplyLow = s.supply.low ∧
        v.trimDefault = s.factory.isNone ∧ v.defaulted = s.cfg.defaulted ∧
        (v.configPending = true ↔ s.cfg.storedSeq ≠ s.cfg.effectiveSeq) ∧
        v.cause = s.supply.cause ∧ v.staging = s.cfg.staging) ∧
    (s.takenTag p (.stageStatus p) = some tag → (s.port p).attached = true →
      exec (.stageStatus p) s = .next (s.replyOnly p tag (.stageStatus p) .ok
        (.staging ⟨s.cfg.staging, s.cfg.owner, s.cfg.target, s.cfg.lastResult, s.cfg.effectiveSeq,
          s.cfg.storedSeq, s.cfg.storeFrozen⟩)))

/-! ### The serial link -/

/-- The framing checks: a frame is a fault exactly when its length byte is missing, announces more bytes
than follow, or is out of 3 to 15; or the CRC differs; or the tag's upper bits are not zero; or the code
is recognised with another length. A recognised code is one of a command, and its length that of the
command's parameters; a frame that is no fault is read as the command that its code and parameters spell, or
as an unknown code, with its tag. -/
def Obligations.FramingChecks : Prop :=
  ∀ (p : Port) (rx : List Byte),
    let n := (rx.getD 0 0#8).toNat
    let tag := (rx.getD 1 0#8).extractLsb' 0 4
    let code := rx.getD 2 0#8
    (readFrame p rx = .fault ↔
      rx = [] ∨
      (rx.length < n + 1 ∨ n < 3 ∨ 15 < n ∨ rx.getD n 0#8 ≠ crc8 (rx.take n) ∨
        (rx.getD 1 0#8).extractLsb' 4 4 ≠ 0#4 ∨
        ∃ m, lengthOfCode code = some m ∧ m ≠ n)) ∧
    (∀ k m, lengthOfCode k = some m ↔
      ∃ c q params, wireOf c = some (q, k, params) ∧ m = params.length + 3) ∧
    (∀ g k, readFrame p rx = .unknown g k ↔
      readFrame p rx ≠ .fault ∧ lengthOfCode code = none ∧ g = tag ∧ k = code) ∧
    ∀ g c, readFrame p rx = .command g c ↔
      readFrame p rx ≠ .fault ∧ g = tag ∧ wireOf c = some (p, code, (rx.drop 3).take (n - 3))

/-- A row of a transaction is its pin changes one after another, each an event of its own port: nothing else
of the part changes but the model's counter (log 19). A level the pin has already is no edge; in IN_RESET a
change moves its pin alone; a transaction of another kind than the row's does not take it. That a transaction
may stand in several rows, and that a row of another kind does nothing, is the model's choice
(logs 10, 28). -/
def Obligations.PinChangesOneByOne : Prop :=
  ∀ (s : State) (kind : TransferKind) (p : Port),
    let row := fun first rest => match kind with
      | .send => Instr.send p first rest
      | .fetch => Instr.fetch p first rest
      | .poll => Instr.poll p first rest
      | .unrecognised => Instr.unrecognisedKindByte p first rest
    let only := fun c u => exec (row c []) s = .next ({ s with free := s.free + 1 }.setPort p u)
    (∀ c, ∃ u, only c u ∧ ∀ d pins,
      exec (row c (d :: pins)) s = exec (row d pins) ({ s with free := s.free + 1 }.setPort p u)) ∧
    (∀ c pins, ∃ u,
      exec (row c pins) s = .next ({ s with free := s.free + 1 + pins.length }.setPort p u)) ∧
    (∀ c t k, (s.port p).transfer = some t → t.kind = some k → k ≠ kind → only c (s.port p)) ∧
    only (.csn (s.port p).pins.csn) (s.port p) ∧ only (.sck (s.port p).pins.sck) (s.port p) ∧
    only (.sdi (s.port p).pins.sdi) (s.port p) ∧
    ((∀ t k, (s.port p).transfer = some t → t.kind = some k → k = kind) →
      (∀ b, only (.sdi b) { s.port p with pins := { (s.port p).pins with sdi := b } }) ∧
      (∀ b, s.device = .inReset →
        only (.csn b) { s.port p with pins := { (s.port p).pins with csn := b } } ∧
        only (.sck b) { s.port p with pins := { (s.port p).pins with sck := b } }))

/-- The fall of CSn outside IN_RESET begins a transaction, in the mode that the level of SCK chooses. The
status byte is the one of this moment; its first bit is on SDO at once in mode 0, and in mode 3 SDO is
driven with a level that is left open (log 29). The row may be of any kind, the kind byte being to come. -/
def Obligations.TransactionBegins : Prop :=
  ∀ (s : State) (p : Port) (c : Instr),
    c = .send p (.csn false) [] ∨ c = .fetch p (.csn false) [] ∨ c = .poll p (.csn false) [] ∨
      c = .unrecognisedKindByte p (.csn false) [] →
    s.device ≠ .inReset → (s.port p).pins.csn = true → (s.port p).transfer = none →
    let status := bitsOfByte (statusByte s.device (s.port p))
    let begun := fun (mode : SpiMode) (out : List Bool) (sdo : Bool) => exec c s =
      .next ({ s with free := s.free + 1 }.setPort p { s.port p with
        pins := { (s.port p).pins with csn := false }
        transfer := some ⟨mode, none, [], out⟩
        sdo := some sdo
        sampled := [] })
    ((s.port p).pins.sck = false → begun .mode0 status.tail ((statusByte s.device (s.port p)).getLsbD 7)) ∧
    ((s.port p).pins.sck = true → ∃ sdo, begun .mode3 status sdo)

/-- The clocks of a transaction. A fall of SCK puts the next bit on SDO: of the status byte or the fetched
frame, a one behind the frame, and an open bit (log 11) behind the status byte of an unrecognised kind. A rise
of SCK samples SDI and shows SDO to the host; the eighth completes a byte. The first byte is the kind byte,
which chooses what follows: the status byte of this moment for SEND and POLL, with an empty receive buffer for
SEND; for FETCH the frame of the reply slot of this moment. A later byte of a SEND enters the buffer, up to
16, and each later byte of a SEND or POLL brings the status byte of its moment. With CSn high SCK moves its
pin alone; with CSn low and no transaction SDO stays driven at a fall of SCK, its level left open (log 30). -/
def Obligations.TransactionClocked : Prop :=
  ∀ (s : State) (kind : TransferKind) (p : Port),
    let u := s.port p
    let row := fun c => match kind with
      | .send => Instr.send p c []
      | .fetch => Instr.fetch p c []
      | .poll => Instr.poll p c []
      | .unrecognised => Instr.unrecognisedKindByte p c []
    let becomes := fun c v => exec (row c) s = .next ({ s with free := s.free + 1 }.setPort p v)
    let low := { u with pins := { u.pins with sck := false } }
    let high := { u with pins := { u.pins with sck := true } }
    let status := bitsOfByte (statusByte s.device u)
    s.device ≠ .inReset →
    (u.transfer = none → u.pins.csn = true →
      becomes (.sck false) low ∧ becomes (.sck true) high) ∧
    (u.transfer = none → u.pins.csn = false → u.pins.sck = true →
      ∃ level, becomes (.sck false) { low with sdo := some level }) ∧
    (u.transfer = none → u.pins.csn = false → becomes (.sck true) high) ∧
    ∀ t, u.transfer = some t → (∀ k, t.kind = some k → k = kind) →
      (u.pins.sck = true →
        (∀ b rest, t.bitsOut = b :: rest → becomes (.sck false)
          { low with transfer := some { t with bitsOut := rest }, sdo := some b }) ∧
        (t.bitsOut = [] → t.kind = some .fetch → becomes (.sck false) { low with sdo := some true }) ∧
        (t.bitsOut = [] → t.kind = some .unrecognised →
          ∃ b, becomes (.sck false) { low with sdo := some b })) ∧
      (u.pins.sck = false →
        let seen := { high with sampled := u.sampled ++ u.sdo.toList }
        (t.bitsIn.length < 7 → becomes (.sck true)
          { seen with transfer := some { t with bitsIn := t.bitsIn ++ [u.pins.sdi] } }) ∧
        ∀ b7 b6 b5 b4 b3 b2 b1, t.bitsIn = [b7, b6, b5, b4, b3, b2, b1] →
          let b := byteOfBits b7 b6 b5 b4 b3 b2 b1 u.pins.sdi
          let next := fun (k : TransferKind) (out : List Bool) =>
            some { t with kind := some k, bitsIn := [], bitsOut := out }
          (t.kind = none → b = 0xA1#8 → becomes (.sck true)
            { seen with rx := [], transfer := next .send status }) ∧
          (t.kind = none → b = 0xA2#8 → becomes (.sck true)
            { seen with transfer := next .fetch (bitsOfBytes u.slot.fetchFrame) }) ∧
          (t.kind = none → b = 0xA4#8 → becomes (.sck true) { seen with transfer := next .poll status }) ∧
          (t.kind = none → b ≠ 0xA1#8 → b ≠ 0xA2#8 → b ≠ 0xA4#8 → becomes (.sck true)
            { seen with transfer := next .unrecognised [] }) ∧
          (t.kind = some .send → becomes (.sck true)
            { seen with
              rx := if u.rx.length < 16 then u.rx ++ [b] else u.rx
              transfer := next .send status }) ∧
          (t.kind = some .poll → becomes (.sck true) { seen with transfer := next .poll status }) ∧
          (t.kind = some .fetch → becomes (.sck true) { seen with transfer := next .fetch t.bitsOut }) ∧
          (t.kind = some .unrecognised → becomes (.sck true)
            { seen with transfer := next .unrecognised t.bitsOut }))

/-- The rise of CSn ends a SEND: the frame is discarded without a flag in BOOT, and in READY decided by the
framing checks, the overrun, the replay, the unknown code, and else accepted; SDO is high-impedance, and
nothing else changes. -/
def Obligations.SendDecision : Prop :=
  ∀ (s : State) (p : Port) (t : Transfer),
    (s.port p).pins.csn = false → (s.port p).transfer = some t → t.kind = some .send →
    let rx := (s.port p).rx
    let u : PortUnit := { s.port p with
      pins := { (s.port p).pins with csn := true }, transfer := none, sdo := none }
    let becomes := fun v => exec (.send p (.csn true) []) s =
      .next ({ s with free := s.free + 1 }.setPort p v)
    let replay := fun tag => tag ≠ 0#4 ∧ (s.port p).lastTag = some tag
    (s.device = .boot → becomes u) ∧
    (s.device = .ready →
      (readFrame p rx = .fault → becomes { u with frameError := true }) ∧
      (readFrame p rx ≠ .fault → (s.port p).executing = true → becomes { u with overrun := true }) ∧
      ((s.port p).executing = false →
        (∀ tag code, readFrame p rx = .unknown tag code →
          (¬replay tag → becomes { u with
            lastTag := some tag, slot := .filled ⟨tag, code, .unknownCommand, false, .none⟩ }) ∧
          (∀ r, replay tag → u.slot = .filled r →
            becomes { u with slot := .filled { r with replayed := true } })) ∧
        (∀ tag c, readFrame p rx = .command tag c →
          (¬replay tag → becomes { u with lastTag := some tag, slot := .pending tag c }) ∧
          (∀ r, replay tag → u.slot = .filled r →
            becomes { u with slot := .filled { r with replayed := true } }))))

/-- The rise of CSn ends every other transaction: a POLL clears FRAME_ERROR and OVERRUN and an unrecognised
kind byte sets FRAME_ERROR, both in READY alone; a FETCH, an incomplete kind byte and a transaction that
began before the part left reset change no flag. SDO is high-impedance, and nothing else changes. -/
def Obligations.TransactionEnds : Prop :=
  ∀ (s : State) (p : Port),
    let u := s.port p
    let ended : PortUnit := { u with pins := { u.pins with csn := true }, transfer := none, sdo := none }
    let becomes := fun c v => exec c s = .next ({ s with free := s.free + 1 }.setPort p v)
    u.pins.csn = false → s.device ≠ .inReset →
    (∀ c, c = .send p (.csn true) [] ∨ c = .fetch p (.csn true) [] ∨ c = .poll p (.csn true) [] ∨
        c = .unrecognisedKindByte p (.csn true) [] →
      (u.transfer = none → becomes c ended) ∧
      ∀ t, u.transfer = some t → t.kind = none → becomes c ended) ∧
    ∀ t, u.transfer = some t →
      (t.kind = some .fetch → becomes (.fetch p (.csn true) []) ended) ∧
      (t.kind = some .poll → becomes (.poll p (.csn true) [])
        (if s.device = .ready then { ended with frameError := false, overrun := false } else ended)) ∧
      (t.kind = some .unrecognised → becomes (.unrecognisedKindByte p (.csn true) [])
        (if s.device = .ready then { ended with frameError := true } else ended))

/-- A whole transaction in one row, with no other event of the part inside it (log 10), in either mode. FETCH:
the host samples (log 31) the status byte and then the frame of the slot's state, with ones after its end.
POLL: the status byte over and over. SEND: the status byte for every byte, and the frame of the first 16
bytes is what the rise of CSn decides. Any other kind byte: the status byte, then bits that are left open
(log 11), and in READY FRAME_ERROR. -/
def Obligations.WholeTransactions : Prop :=
  ∀ (s : State) (p : Port) (mode3 : Bool) (bytes : List Byte),
    let u := s.port p
    let pins := fun kind : Byte => [PinChange.csn false] ++
      (bitsOfBytes (kind :: bytes)).flatMap (fun b => [.sck false, .sdi b, .sck true]) ++ [.csn true]
    let status := bitsOfByte (statusByte s.device u)
    let m := 8 * bytes.length
    let ended := fun (t : State) (sampled : List Bool) => { u with
      pins := (t.port p).pins, transfer := none, sdo := none, sampled := sampled }
    s.device ≠ .inReset → u.pins.csn = true → u.transfer = none →
    (∃ t, exec (.fetch p (.sck mode3) (pins 0xA2#8)) s = .next t ∧
      let shifts := fun frame => t.port p = ended t
        (status ++ (bitsOfBytes frame ++ List.replicate m true).take m)
      (u.slot = .empty → shifts [0x00#8]) ∧
      (∀ tag c, u.slot = .pending tag c → shifts (frameOf tag (codeOf c) [0x1C#8, 0x00#8])) ∧
      (∀ r, u.slot = .filled r →
        shifts (frameOf r.tag r.code
          ([r.status.code, if r.replayed then 1#8 else 0#8] ++ r.fields.bytes)))) ∧
    (∃ t, exec (.poll p (.sck mode3) (pins 0xA4#8)) s = .next t ∧
      let v := ended t ((List.replicate (bytes.length + 1) status).flatten)
      t.port p = if s.device = .ready then { v with frameError := false, overrun := false } else v) ∧
    (∃ t, exec (.send p (.sck mode3) (pins 0xA1#8)) s = .next t ∧
      let v := { ended t ((List.replicate (bytes.length + 1) status).flatten) with rx := bytes.take 16 }
      t.port p = if s.device = .ready then v.decide (readFrame p (bytes.take 16)) else v) ∧
    ∀ kind, kind ≠ 0xA1#8 → kind ≠ 0xA2#8 → kind ≠ 0xA4#8 →
      ∃ t rest, exec (.unrecognisedKindByte p (.sck mode3) (pins kind)) s = .next t ∧
        rest.length = m ∧
        let v := ended t (status ++ rest)
        t.port p = if s.device = .ready then { v with frameError := true } else v

/-- The port status byte, flag by flag at its bit, and the output lines: ATTNn is low exactly while the port
is ATTACHED and its queue is not empty, and then agrees with NOTICES on a claim table that keeps its
invariant; a gate line is high exactly in HIGH. The status byte is never FFh. -/
def Obligations.StatusByteAndLines : Prop :=
  ∀ (s : State) (p : Port),
    let u := s.port p
    let b := statusByte s.device u
    (b.getLsbD 0 = true ↔ s.device = .boot) ∧
    (b.getLsbD 1 = true ↔ u.attached = true) ∧
    (b.getLsbD 2 = true ↔ ∃ tag c, u.slot = .pending tag c) ∧
    (b.getLsbD 3 = true ↔ ∃ r, u.slot = .filled r) ∧
    (b.getLsbD 4 = true ↔ u.notices ≠ []) ∧
    (b.getLsbD 5 = true ↔ u.frameError = true) ∧
    (b.getLsbD 6 = true ↔ u.overrun = true) ∧
    (b.getLsbD 7 = true ↔ u.sessionLost = true) ∧
    b ≠ 0xFF#8 ∧
    (u.executing = true ↔ ∃ tag c, u.slot = .pending tag c) ∧
    (u.attnLow = true ↔ u.attached = true ∧ u.notices ≠ []) ∧
    (ClaimTableInv s → u.attnLow = b.getLsbD 4) ∧
    ∀ ch, (s.chan ch).lineHigh = true ↔ (s.chan ch).state = .high

/-- The order of bits on the link, the frame CRC-8, the frames and the field bytes of every reply, code by
code. In a frame the length byte counts what follows it and the CRC-8 covers what stands before it. The two
bytes of a remainder hold all of it by DeadlineInvariantKept. The code of a recorded cause that is cleared is
the model's choice (log 21), and so are the low 16 bits of the sequence 65536 (log 20). -/
def Obligations.ReplyLayouts : Prop :=
  let word := fun w : Word =>
    [(w >>> 24).setWidth 8, (w >>> 16).setWidth 8, (w >>> 8).setWidth 8, (w.setWidth 8 : Byte)]
  let half := fun h : Half => [(h >>> 8).setWidth 8, (h.setWidth 8 : Byte)]
  let byte := fun n : Nat => (BitVec.ofNat 8 n : Byte)
  let flag := fun b : Bool => (if b then 1#8 else 0#8 : Byte)
  let mode := fun m : Mode => (match m with | .exclusive => 1#8 | .shared => 2#8 : Byte)
  let slot := fun sl : Slot => (match sl with
    | .free => 0#8 | .waiting _ _ _ _ => 1#8 | .reserved _ _ _ _ => 2#8 | .holding _ _ _ _ => 3#8
    | .pinned _ _ => 4#8 : Byte)
  let channel := fun c : ChannelState => (match c with
    | .unbound => 0#8 | .idle => 1#8 | .high => 2#8 | .heldLow => 3#8 | .guard _ => 4#8 : Byte)
  let staging := fun c : StagingState => (match c with
    | .idle => 0#8 | .opened => 1#8 | .commitPending => 2#8 | .programming => 3#8 : Byte)
  let side := fun c : Side => (match c with | .a => 0#8 | .b => 1#8 : Byte)
  let status := fun st : Status => (match st with
    | .ok => 0x00#8 | .queued => 0x01#8 | .busy => 0x02#8 | .noToken => 0x03#8 | .notHeld => 0x04#8
    | .badToken => 0x05#8 | .alreadyHeld => 0x06#8 | .alreadyWaiting => 0x07#8 | .notWaiting => 0x08#8
    | .slotsExhausted => 0x09#8 | .tableFull => 0x0A#8 | .noRight => 0x0B#8 | .classDenied => 0x0C#8
    | .badParam => 0x0D#8 | .detached => 0x0E#8 | .notAttached => 0x0F#8 | .storeFault => 0x10#8
    | .tokensSpent => 0x11#8 | .noNotice => 0x12#8 | .badSeq => 0x13#8 | .noRecord => 0x14#8
    | .endOfTable => 0x15#8 | .stageOwned => 0x16#8 | .notOwner => 0x17#8 | .notOpen => 0x18#8
    | .frozen => 0x19#8 | .badImage => 0x1A#8 | .unknownCommand => 0x1B#8 | .notReady => 0x1C#8
    | .valid => 0x1D#8 | .stale => 0x1E#8 | .future => 0x1F#8 : Byte)
  (∀ b : Byte, bitsOfByte b = (List.range 8).map fun j => b.getLsbD (7 - j)) ∧
  (∀ b7 b6 b5 b4 b3 b2 b1 b0, bitsOfByte (byteOfBits b7 b6 b5 b4 b3 b2 b1 b0) =
    [b7, b6, b5, b4, b3, b2, b1, b0]) ∧
  (∀ l, bitsOfBytes l = l.flatMap bitsOfByte) ∧
  (∀ c p code params, wireOf c = some (p, code, params) → codeOf c = code) ∧
  (ReplySlot.fetchFrame .empty = [0x00#8] ∧
    (∀ tag c, (ReplySlot.pending tag c).fetchFrame = frameOf tag (codeOf c) [0x1C#8, 0x00#8]) ∧
    ∀ r, (ReplySlot.filled r).fetchFrame = r.frame) ∧
  crc8 [] = 0xFF#8 ∧
  (∀ l b, crc8 (l ++ [b]) = Nat.repeat
    (fun c : Byte => if c.getLsbD 7 then (c <<< 1) ^^^ 0x07#8 else c <<< 1) 8 (crc8 l ^^^ b)) ∧
  (∀ tag code rest, frameOf tag code rest =
    let body := [byte (rest.length + 3), (tag.setWidth 8 : Byte), code] ++ rest
    body ++ [crc8 body]) ∧
  (∀ r : Reply, r.frame =
    let body := [byte (r.fields.bytes.length + 5), (r.tag.setWidth 8 : Byte), r.code, status r.status,
      flag r.replayed] ++ r.fields.bytes
    body ++ [crc8 body]) ∧
  Fields.none.bytes = [] ∧
  (∀ n floor, (Fields.session n floor).bytes = half n ++ word floor) ∧
  (∀ token deadline k, (Fields.grant token deadline k).bytes =
    word token ++ word deadline ++ [byte k.val]) ∧
  (∀ k, (Fields.slot k).bytes = [byte k.val]) ∧
  (∀ deadline, (Fields.deadline deadline).bytes = word deadline) ∧
  (∀ p m, (Fields.holder p m).bytes = [byte p.val, mode m]) ∧
  (∀ n count, (Fields.notice n count).bytes =
    [n.seq, match n.kind with | .granted => 1#8 | .lapsed => 2#8 | .revoked => 3#8 | .withdrawn => 4#8] ++
      word n.key ++ [byte n.slot.val] ++ word n.token ++
      [match n.reason with
        | .none => 0#8 | .waitExpired => 1#8 | .revoked => 2#8 | .storeFault => 3#8
        | .tokensSpent => 4#8] ++ word n.tick ++ [byte count]) ∧
  (∀ count sl, (Fields.remaining count sl).bytes = [byte count, slot sl]) ∧
  (∀ v, (Fields.record v).bytes =
    word v.key ++ [byte v.index.val, match v.mode with | none => 0#8 | some m => mode m,
      byte v.holders.length, byte v.waiters.length,
      match v.channel with | none => 0xFF#8 | some (ch, c) => byte (16 * ch.val) ||| channel c] ++
      v.holders.flatMap (fun h => [byte h.port.val, mode h.mode] ++ half (h.remaining.setWidth 16) ++
        word h.token) ++
      v.waiters.flatMap (fun w => [byte w.port.val, mode w.mode,
        match w.state with | .queued => 1#8 | .reserved => 2#8])) ∧
  (∀ sl count, (Fields.mySlot sl count).bytes = slot sl ::
    match sl with
    | .free => word 0#32 ++ [0#8] ++ word 0#32 ++ word 0#32 ++ half 0#16 ++ [0#8]
    | .waiting key m deadline lease | .reserved key m deadline lease =>
      word key ++ [mode m] ++ word 0#32 ++ word deadline ++ half lease ++ [0#8]
    | .holding key m token deadline =>
      word key ++ [mode m] ++ word token ++ word deadline ++ half 0#16 ++ [byte count]
    | .pinned key token => word key ++ [0#8] ++ word token ++ word 0#32 ++ half 0#16 ++ [byte count]) ∧
  (∀ now, (Fields.now now).bytes = word now) ∧
  (∀ v, (Fields.status v).bytes =
    [1#8, match v.token with
      | .normal => 0#8 | .advancing => 1#8 | .storeFault => 2#8 | .tokensSpent => 3#8] ++
      word v.G ++ word v.F ++ [byte v.records] ++
      [channel v.chans[0], channel v.chans[1], channel v.chans[2], channel v.chans[3]] ++
      [flag v.supplyLow ||| flag v.trimDefault <<< 1 ||| flag v.defaulted <<< 2 |||
          flag v.configPending <<< 3,
        match v.cause with
          | none => 0#8 | some .powerOn => 0#8 | some .brownout => 1#8 | some .pin => 2#8
          | some .restart => 3#8,
        staging v.staging]) ∧
  ((Fields.ident none).bytes = List.replicate 10 0#8) ∧
  (∀ v, (Fields.ident (some v)).bytes =
    [1#8] ++ half v.vendor ++ half v.part ++ [v.revision] ++ word v.serial) ∧
  (∀ count, (Fields.removed count).bytes = [byte count]) ∧
  (∀ t, (Fields.target t).bytes = side t.copy :: half (BitVec.ofNat 16 t.seq)) ∧
  (∀ item index, (Fields.badItem item index).bytes =
    [match item with
      | .rights => 1#8 | .classMask => 2#8 | .maxLease => 3#8 | .maxWait => 4#8 | .gateKey => 5#8
      | .guard => 6#8 | .frozen => 7#8, byte index]) ∧
  (∀ item index value, (Fields.field item index value).bytes = [item, index] ++ word value) ∧
  (∀ v, (Fields.staging v).bytes =
    [staging v.staging, match v.owner with | none => 0xFF#8 | some p => byte p.val] ++
      (match v.target with
        | none => 0xFF#8 :: half 0#16
        | some t => side t.copy :: half (BitVec.ofNat 16 t.seq)) ++
      [match v.lastResult with | .none => 0#8 | .done => 1#8 | .failed => 2#8 | .refused => 3#8] ++
      half v.effectiveSeq ++ half v.storedSeq ++ [flag v.storeFrozen])

/-- The code and the parameter bytes of every host command, and every host command read back from its frame,
whatever bytes follow the frame: every operand at every value, every tag. -/
def Obligations.ReadFrameOfEncodeFrame : Prop :=
  let word := fun w : Word =>
    [(w >>> 24).setWidth 8, (w >>> 16).setWidth 8, (w >>> 8).setWidth 8, (w.setWidth 8 : Byte)]
  let half := fun h : Half => [(h >>> 8).setWidth 8, (h.setWidth 8 : Byte)]
  (∀ (p : Port) (key token value : Word) (lease wait : Half) (a b : Byte),
    wireOf (.hello p) = some (p, 0x10#8, []) ∧
    wireOf (.bye p) = some (p, 0x11#8, []) ∧
    wireOf (.acquire p key a lease wait) = some (p, 0x20#8, word key ++ [a] ++ half lease ++ half wait) ∧
    wireOf (.renew p key token lease) = some (p, 0x21#8, word key ++ word token ++ half lease) ∧
    wireOf (.release p key token) = some (p, 0x22#8, word key ++ word token) ∧
    wireOf (.cancel p key) = some (p, 0x23#8, word key) ∧
    wireOf (.verify p key token) = some (p, 0x28#8, word key ++ word token) ∧
    wireOf (.peekNotice p) = some (p, 0x30#8, []) ∧
    wireOf (.ackNotice p a) = some (p, 0x31#8, [a]) ∧
    wireOf (.lookup p key) = some (p, 0x40#8, word key) ∧
    wireOf (.list p a) = some (p, 0x41#8, [a]) ∧
    wireOf (.mySlot p a) = some (p, 0x42#8, [a]) ∧
    wireOf (.time p) = some (p, 0x43#8, []) ∧
    wireOf (.status p) = some (p, 0x44#8, []) ∧
    wireOf (.ident p) = some (p, 0x45#8, []) ∧
    wireOf (.revoke p key a) = some (p, 0x50#8, word key ++ [a]) ∧
    wireOf (.eject p a) = some (p, 0x51#8, [a]) ∧
    wireOf (.restart p) = some (p, 0x52#8, []) ∧
    wireOf (.stageBegin p) = some (p, 0x60#8, []) ∧
    wireOf (.stageSet p a b value) = some (p, 0x61#8, [a, b] ++ word value) ∧
    wireOf (.stageRead p a b) = some (p, 0x62#8, [a, b]) ∧
    wireOf (.stageAbort p) = some (p, 0x63#8, []) ∧
    wireOf (.commit p) = some (p, 0x64#8, []) ∧
    wireOf (.stageStatus p) = some (p, 0x65#8, [])) ∧
  ∀ (p : Port) (tag : BitVec 4) (c : Instr) (code : Byte) (params : List Byte),
    wireOf c = some (p, code, params) →
    encodeFrame tag c = some (frameOf tag code params) ∧
    ∀ frame extra, encodeFrame tag c = some frame → readFrame p (frame ++ extra) = .command tag c

/-! ### Staging, commits and rows -/

/-- STAGE_BEGIN: its refusals in order, or the image of the configuration in force opens with the asking
port as owner, and nothing else changes. -/
def Obligations.StageBeginOutcome : Prop :=
  ∀ (s : State) (p : Port) (tag : BitVec 4),
    let c := Instr.stageBegin p
    let refused := fun st => exec c s = .next (s.replyOnly p tag c st .none)
    let right := (s.settings p).rights.configure
    s.takenTag p c = some tag →
    ((s.port p).attached = false → refused .detached) ∧
    ((s.port p).attached = true →
      (right = false → refused .noRight) ∧
      (right = true → s.cfg.storeFrozen = true → refused .frozen) ∧
      (right = true → s.cfg.storeFrozen = false → s.cfg.staging ≠ .idle → refused .stageOwned) ∧
      (right = true → s.cfg.storeFrozen = false → s.cfg.staging = .idle →
        exec c s = .next (State.replyOnly
          { s with cfg := { s.cfg with
              staging := .opened, owner := some p, image := some s.cfg.effective } }
          p tag c .ok .none)))

/-- The field of the image that each item names. STAGE_SET, STAGE_READ and STAGE_ABORT from an ATTACHED port:
NOT_OPEN, NOT_OWNER, BAD_PARAM for an item, an index or a value out of range, or one field set, one field
read, or the image discarded, and nothing else. An open staging has its image and owner by
ConfigurationInvariantKept. -/
def Obligations.StageEditOutcome : Prop :=
  (∀ (item : Byte) (it : Item), itemOfCode item = some it ↔
    (item = 1#8 ∧ it = .rights) ∨ (item = 2#8 ∧ it = .classMask) ∨ (item = 3#8 ∧ it = .maxLease) ∨
    (item = 4#8 ∧ it = .maxWait) ∨ (item = 5#8 ∧ it = .gateKey) ∨ (item = 6#8 ∧ it = .guard) ∨
    (item = 7#8 ∧ it = .frozen)) ∧
  (∀ (img : Image) (n : Fin 4) (index : Byte), index.toNat = n.val →
    let set := img.port n
    let bit := fun (right : Bool) (k : Nat) => if right then 1#32 <<< k else 0#32
    img.readField .rights index = some (bit set.rights.acquire 0 ||| bit set.rights.inspect 1 |||
      bit set.rights.revoke 2 ||| bit set.rights.configure 3) ∧
    img.readField .classMask index = some (set.classMask.setWidth 32) ∧
    img.readField .maxLease index = some (set.maxLease.setWidth 32) ∧
    img.readField .maxWait index = some (set.maxWait.setWidth 32) ∧
    img.readField .gateKey index = some (img.chan n).key ∧
    img.readField .guard index = some ((img.chan n).guard.setWidth 32)) ∧
  (∀ img : Image, img.readField .frozen 0#8 = some (if img.frozen then 1#32 else 0#32)) ∧
  ∀ (s : State) (p : Port) (tag : BitVec 4) (item index : Byte) (value : Word) (c : Instr),
    c = .stageSet p item index value ∨ c = .stageRead p item index ∨ c = .stageAbort p →
    s.takenTag p c = some tag → (s.port p).attached = true →
    let refused := fun st => exec c s = .next (s.replyOnly p tag c st .none)
    let named := 1 ≤ item.toNat ∧ item.toNat ≤ 7 ∧ index.toNat < (if item = 7#8 then 1 else 4)
    let inRange := value.toNat ≤
      if item = 1#8 then 15
      else if item = 2#8 then 65535
      else if item = 3#8 ∨ item = 4#8 then 60000
      else if item = 5#8 then 4294967295
      else if item = 6#8 then 10000
      else 1
    (s.cfg.staging ≠ .opened → refused .notOpen) ∧
    (s.cfg.staging = .opened → s.cfg.owner ≠ some p → refused .notOwner) ∧
    ∀ img, s.cfg.staging = .opened → s.cfg.owner = some p → s.cfg.image = some img →
      (c = .stageSet p item index value →
        (¬(named ∧ inRange) → refused .badParam) ∧
        (named → inRange → ∃ it img', itemOfCode item = some it ∧ it.code = item ∧
          exec c s = .next (State.replyOnly
            { s with cfg := { s.cfg with image := some img' } }
            p tag c .ok (.field item index value)) ∧
          img'.readField it index = some value ∧
          ∀ it' index', (it', index') ≠ (it, index) → img'.readField it' index' =
            img.readField it' index')) ∧
      (c = .stageRead p item index →
        (¬named → refused .badParam) ∧
        (named → ∃ it v, itemOfCode item = some it ∧ img.readField it index = some v ∧
          exec c s = .next (s.replyOnly p tag c .ok (.field item index v)))) ∧
      (c = .stageAbort p → exec c s = .next (State.replyOnly
        { s with cfg := { s.cfg with staging := .idle, owner := none, image := none } }
        p tag c .ok .none))

/-- COMMIT from an ATTACHED port: NOT_OPEN, NOT_OWNER, BAD_IMAGE with the field named (of two channels with
the same non-zero key the higher one, of the pair with the lowest lower channel and then the lowest higher
one), or accepted: the copy that does not hold the newest image, the stored sequence plus 1, and the first row
started at an idle engine with supply-low clear and no advance waiting, refused there with a spent sequence,
or left waiting, behind an advance that starts first if one waits there (none does, by TokenInvariantsKept).
The order of the channel pairs (log 15) and the low 16 bits that a waiting request carries for the sequence
65536 (log 20) are the model's readings. -/
def Obligations.CommitOutcome : Prop :=
  ∀ (s : State) (p : Port) (tag : BitVec 4),
    let c := Instr.commit p
    let reply := fun st f => exec c s = .next (s.replyOnly p tag c st f)
    s.takenTag p c = some tag → (s.port p).attached = true →
    (s.cfg.staging ≠ .opened → reply .notOpen .none) ∧
    (s.cfg.staging = .opened → s.cfg.owner ≠ some p → reply .notOwner .none) ∧
    ∀ img, s.cfg.staging = .opened → s.cfg.owner = some p → s.cfg.image = some img →
      let same := fun a b : Channel =>
        a < b ∧ (img.chan a).key ≠ 0#32 ∧ (img.chan a).key = (img.chan b).key
      let unshared := ∀ a b, ¬same a b
      (∀ a b, same a b → (∀ c d, same c d → a < c ∨ a = c ∧ b ≤ d) →
        img.sharedKey = some (a, b) ∧ reply .badImage (.badItem .gateKey b.val)) ∧
      (unshared ↔ img.sharedKey = none) ∧
      (∀ q : Port, unshared → (img.port q).maxLease < 10#16 →
        (∀ q', q' < q → 10#16 ≤ (img.port q').maxLease) →
        reply .badImage (.badItem .maxLease q.val)) ∧
      (unshared → (∀ q, 10#16 ≤ (img.port q).maxLease) → img.frozen = false →
        (∀ q, (img.port q).rights.configure = false) → reply .badImage (.badItem .frozen 0)) ∧
      (unshared → (∀ q, 10#16 ≤ (img.port q).maxLease) →
        (img.frozen = true ∨ ∃ q, (img.port q).rights.configure = true) →
        let side : Side := match s.cfg.recordA, s.cfg.recordB with
          | some _, none => .b
          | none, some _ => .a
          | none, none => .a
          | some a, some b => if a < b then .a else .b
        let target : CommitTarget := ⟨side, s.cfg.storedSeq.toNat + 1⟩
        s.cfg.nextTarget = target ∧
        let cfg := { s.cfg with staging := .commitPending, target := some target }
        let req : RowRequest :=
          ⟨.copyOne side, copyRowOne (s.cfg.storedSeq + 1#16) img, .configUnit⟩
        firstRowRequest target img = req ∧
        let accepted := fun cfg' store' => exec c s = .next
          (State.replyOnly { s with cfg := cfg', store := store' } p tag c .ok (.target target))
        (s.store.engine ≠ .idle ∨ s.supply.low = true →
          accepted cfg { s.store with commitInput := some req }) ∧
        (s.store.engine = .idle → s.supply.low = false → ∀ advance, s.store.advanceInput = some advance →
          accepted cfg { s.store with
            advanceInput := none, commitInput := some req, engine := .busy advance .first .erase }) ∧
        (s.store.engine = .idle → s.supply.low = false → s.store.advanceInput = none →
          (s.cfg.storedSeq = 65535#16 →
            accepted { cfg with staging := .idle, owner := none, image := none, target := none,
                                lastResult := .refused } { s.store with commitInput := none }) ∧
          (s.cfg.storedSeq ≠ 65535#16 →
            accepted { cfg with staging := .programming }
              { s.store with commitInput := none, engine := .busy req .first .erase })))

/-- The classes of the rows and copies, and their layouts. The row CRC-16 is shifted byte by byte and stands
in the last two bytes, upper first. A reserve row is blank, valid with its floor, or corrupt in any other
case; a configuration row blank, intact or damaged; a copy blank, valid with its sequence and image, or
corrupt in any other case, a frozen byte above 01h included. Every field is read at its offset. A row and a
copy as written read back as written, with fill bytes of 00h. -/
def Obligations.RowClasses : Prop :=
  let byte := fun (r : Row) (i : Nat) => (r.toList.getD i 0#8 : Byte)
  let half := fun (r : Row) (i : Nat) => (byte r i ++ byte r (i + 1) : Half)
  let word := fun (r : Row) (i : Nat) => (half r i ++ half r (i + 2) : Word)
  let blank := fun r : Row => ∀ i : Fin 32, r[i] = 0xFF#8
  let crcOk := fun r : Row => crc16 (r.toList.take 30) = half r 30
  crc16 [] = 0xFFFF#16 ∧
  (∀ l b, crc16 (l ++ [b]) = Nat.repeat
    (fun c : Half => if c.getLsbD 15 then (c <<< 1) ^^^ 0x1021#16 else c <<< 1) 8
    (crc16 l ^^^ (b ++ 0#8 : Half))) ∧
  (∀ r : Row,
    (reserveClass r = .blank ↔ blank r) ∧
    (∀ floor, reserveClass r = .valid floor ↔
      ¬blank r ∧ crcOk r ∧ word r 4 = ~~~word r 0 ∧ floor = word r 0 ∧ floor ≠ 0#32) ∧
    (configRowClass r = .blank ↔ blank r) ∧
    (configRowClass r = .intact ↔ ¬blank r ∧ crcOk r) ∧
    ∀ side, ((ProgRow.reserve side).readsCorrupt r = true ↔ reserveClass r = .corrupt) ∧
      ((ProgRow.copyOne side).readsCorrupt r = true ↔ configRowClass r = .damaged) ∧
      ((ProgRow.copyTwo side).readsCorrupt r = true ↔ configRowClass r = .damaged)) ∧
  (∀ one two : Row,
    let img := readImage one two
    (img.frozen = true ↔ byte one 2 = 1#8) ∧
    (∀ p : Port,
      let rights := byte one (3 + p.val / 2)
      let bit := fun k : Nat => rights.getLsbD (if p.val % 2 = 0 then k + 4 else k)
      let at_ := 5 + 6 * p.val
      img.port p = ⟨⟨bit 0, bit 1, bit 2, bit 3⟩, half one at_, half one (at_ + 2), half one (at_ + 4)⟩) ∧
    (∀ ch : Channel,
      let at_ := 2 + 6 * ch.val
      img.chan ch = ⟨word two at_, half two (at_ + 4)⟩) ∧
    (copyClass one two = .blank ↔ blank one ∧ blank two) ∧
    ∀ seq i, copyClass one two = .valid seq i ↔
      configRowClass one = .intact ∧ configRowClass two = .intact ∧
      seq = half one 0 ∧ half two 0 = half one 0 ∧ 1 ≤ seq.toNat ∧ i = img ∧
      (byte one 2 = 0#8 ∨ byte one 2 = 1#8) ∧
      (∀ p, 10 ≤ (img.port p).maxLease.toNat ∧ (img.port p).maxLease.toNat ≤ 60000 ∧
        (img.port p).maxWait.toNat ≤ 60000) ∧
      (∀ ch, (img.chan ch).guard.toNat ≤ 10000) ∧
      (∀ a b, a ≠ b → (img.chan a).key ≠ 0#32 → (img.chan a).key ≠ (img.chan b).key) ∧
      (img.frozen = true ∨ ∃ p, (img.port p).rights.configure = true)) ∧
  (∀ floor : Word, floor ≠ 0#32 → reserveClass (reserveRow floor) = .valid floor) ∧
  (∀ (floor : Word) (i : Nat), 8 ≤ i → i < 30 → byte (reserveRow floor) i = 0#8) ∧
  ∀ (seq : Half) (img : Image),
    (img.inRange = true ↔
      (∀ p, 10 ≤ (img.port p).maxLease.toNat ∧ (img.port p).maxLease.toNat ≤ 60000 ∧
        (img.port p).maxWait.toNat ≤ 60000) ∧ ∀ ch, (img.chan ch).guard.toNat ≤ 10000) ∧
    (img.changeable = true ↔ img.frozen = true ∨ ∃ p, (img.port p).rights.configure = true) ∧
    (byte (copyRowOne seq img) 29 = 0#8 ∧ half (copyRowTwo seq img) 26 = 0#16 ∧
      half (copyRowTwo seq img) 28 = 0#16) ∧
    (seq ≠ 0#16 → img.inRange = true → img.sharedKey = none → img.changeable = true →
      copyClass (copyRowOne seq img) (copyRowTwo seq img) = .valid seq img)

/-- Which store row a request names. ROW_ERASE_DONE and ROW_WRITE_DONE: the row blank, the row with the bytes
of the request, and the next phase; in any other condition of the engine nothing changes (log 4). -/
def Obligations.RowPhases : Prop :=
  ((ProgRow.reserve .a).index = 1 ∧ (ProgRow.reserve .b).index = 2 ∧ (ProgRow.copyOne .a).index = 3 ∧
    (ProgRow.copyTwo .a).index = 4 ∧ (ProgRow.copyOne .b).index = 5 ∧ (ProgRow.copyTwo .b).index = 6) ∧
  ∀ (s : State),
    (∀ req attempt, s.store.engine = .busy req attempt .erase →
      exec .rowEraseDone s = .next { s with store := { s.store with
        rows := s.store.rows.set req.row.index (Vector.replicate 32 0xFF#8)
        engine := .busy req attempt .write } }) ∧
    (∀ req attempt, s.store.engine = .busy req attempt .write →
      exec .rowWriteDone s = .next { s with store := { s.store with
        rows := s.store.rows.set req.row.index req.bytes
        engine := .busy req attempt .verify } }) ∧
    ((∀ req attempt, s.store.engine ≠ .busy req attempt .erase) →
      exec .rowEraseDone s = .next s) ∧
    ((∀ req attempt, s.store.engine ≠ .busy req attempt .write) →
      exec .rowWriteDone s = .next s)

/-- ROW_VERIFY_END on a row of an advance: a match sets the floor and the active row, ends ADVANCING, reports
availability if the demand flag is set and tests the low-water condition; a failed attempt 1 is followed by
attempt 2, a failed attempt 2 by STORE_FAULT. The engine, IDLE again, then serves its inputs. F' is read
from the row written (log 25), a row that failed reads blank or corrupt (log 9), and a report is the index
its first event looks from (log 18): the model's readings. -/
def Obligations.AdvanceRowEnds : Prop :=
  ∀ (s : State) (req : RowRequest) (attempt : Attempt) (side : Side),
    s.store.engine = .busy req attempt .verify → req.row = .reserve side →
    let F := rowWord req.bytes 0
    let again := F - s.tok.G ≤ 32#32 ∧ F ≠ maxWord
    let floor : Word := if 4294967295 < F.toNat + 256 then maxWord else F + 256#32
    let next : RowRequest := ⟨.reserve (advanceTarget (some side) (s.reserveRowClass .a)
      (s.reserveRowClass .b)), reserveRow floor, .tokenUnit⟩
    (∃ t, exec (.rowVerifyEnd true) s = .next t ∧ InputsServed
      { s with
        tok := { s.tok with
          F := F, active := some side, demand := false
          state := if again then .advancing else .normal }
        availSweep := if s.tok.demand then some 0 else s.availSweep
        store := { s.store with
          engine := .idle
          advanceInput := if again then some next else s.store.advanceInput } } t) ∧
    (attempt = .first → ∃ rows, RowFailed req s.store.rows rows ∧ exec (.rowVerifyEnd false) s =
      .next { s with
        free := s.free + 1
        store := { s.store with rows := rows, engine := .busy req .second .erase } }) ∧
    (attempt = .second → ∃ rows t, RowFailed req s.store.rows rows ∧
      exec (.rowVerifyEnd false) s = .next t ∧ InputsServed
        { s with
          free := s.free + 1
          tok := { s.tok with state := .storeFault }
          faultSweep := some 0
          store := { s.store with rows := rows, engine := .idle } } t)

/-- ROW_VERIFY_END on a row of a commit: the first row's success hands over the second row of the target
copy, the second row's success completes the commit, a failed attempt 1 of either is followed by attempt 2,
and a failed attempt 2 of either fails the commit. The engine, IDLE again, then serves its inputs, a waiting
advance before the second row; nothing else changes. A row that failed reads blank or corrupt (log 9), a
failed row two never as it was before the commit, which is the model's choice (log 34). A commit in
PROGRAMMING has its image and target, and its row in the engine or still to come, by
ConfigurationInvariantKept. -/
def Obligations.CommitRowEnds : Prop :=
  ∀ (s : State) (req : RowRequest) (attempt : Attempt) (side : Side) (target : CommitTarget)
    (img : Image),
    s.store.engine = .busy req attempt .verify → s.cfg.target = some target → s.cfg.image = some img →
    target.copy = side →
    let second : RowRequest :=
      ⟨.copyTwo side, copyRowTwo (BitVec.ofNat 16 target.seq) img, .configUnit⟩
    let ended := fun (c : ConfigUnit) (q : Option Half) (result : LastResult) =>
      { c with
        staging := .idle, owner := none, image := none, target := none, lastResult := result
        recordA := if side = .a then q else c.recordA
        recordB := if side = .b then q else c.recordB }
    secondRowRequest target img = second ∧
    (req.row = .copyOne side → ∃ t, exec (.rowVerifyEnd true) s = .next t ∧ InputsServed
      { s with store := { s.store with engine := .idle, commitInput := some second } } t) ∧
    (req.row = .copyTwo side → ∃ t, exec (.rowVerifyEnd true) s = .next t ∧ InputsServed
      { s with
        store := { s.store with engine := .idle }
        cfg := ended { s.cfg with
            storedSeq := BitVec.ofNat 16 target.seq
            storeFrozen := s.cfg.storeFrozen || img.frozen }
          (some (BitVec.ofNat 16 target.seq)) .done } t) ∧
    (req.row = .copyOne side ∨ req.row = .copyTwo side →
      (attempt = .first → ∃ rows, RowFailed req s.store.rows rows ∧ exec (.rowVerifyEnd false) s =
        .next { s with
          free := s.free + 1
          store := { s.store with rows := rows, engine := .busy req .second .erase } }) ∧
      (attempt = .second → ∃ rows t, RowFailed req s.store.rows rows ∧
        exec (.rowVerifyEnd false) s = .next t ∧ InputsServed
          { s with
            free := s.free + 1
            store := { s.store with rows := rows, engine := .idle }
            cfg := ended s.cfg none .failed } t))

/-! ### Start-up and supply -/

/-- What BOOT selects, row by row of its tables: the floor, the active row and the state of the token unit;
the configuration in force with CONFIG_DEFAULTED, the two sequences, the store-frozen flag and the copy
records, staging idle; the factory defaults; how each gate channel starts; and what is kept of the factory
row. The classes of the rows are those of RowClasses. -/
def Obligations.StartUpSelection : Prop :=
  let selected := fun (floor : Word) (active : Option Side) => TokenUnit.mk floor floor
    (if floor = maxWord then .tokensSpent else .advancing) active false floor
  let loaded := fun (img : Image) (seq : Half) (defaulted storeFrozen : Bool)
      (recordA recordB : Option Half) => ({
    effective := img, defaulted := defaulted, staging := .idle, owner := none, image := none
    target := none, lastResult := .none, effectiveSeq := seq, storedSeq := seq
    storeFrozen := storeFrozen, recordA := recordA, recordB := recordB } : ConfigUnit)
  let defaults := Image.factoryDefault
  (∀ fa fb, selectTokens (.valid fa) (.valid fb) =
    if fa < fb then selected fb (some .b) else selected fa (some .a)) ∧
  (∀ fa b, b = .blank ∨ b = .corrupt → selectTokens (.valid fa) b = selected fa (some .a)) ∧
  (∀ a fb, a = .blank ∨ a = .corrupt → selectTokens a (.valid fb) = selected fb (some .b)) ∧
  (∀ a b, (a = .blank ∧ (b = .blank ∨ b = .corrupt)) ∨ (a = .corrupt ∧ b = .blank) →
    selectTokens a b = ⟨1#32, 1#32, .advancing, none, false, 1#32⟩) ∧
  selectTokens .corrupt .corrupt = ⟨0#32, 0#32, .storeFault, none, false, 0#32⟩ ∧
  (∀ qa a qb b, selectConfig (.valid qa a) (.valid qb b) =
    if qa < qb then loaded b qb false (a.frozen || b.frozen) (some qa) (some qb)
    else loaded a qa false (a.frozen || b.frozen) (some qa) (some qb)) ∧
  (∀ qa a b, b = .blank ∨ b = .corrupt →
    selectConfig (.valid qa a) b = loaded a qa false a.frozen (some qa) none) ∧
  (∀ a qb b, a = .blank ∨ a = .corrupt →
    selectConfig a (.valid qb b) = loaded b qb false b.frozen none (some qb)) ∧
  selectConfig .blank .blank = loaded defaults 0#16 false false none none ∧
  (∀ a b, (a = .blank ∧ b = .corrupt) ∨ (a = .corrupt ∧ (b = .blank ∨ b = .corrupt)) →
    selectConfig a b = loaded defaults 0#16 true false none none) ∧
  (defaults.frozen = false ∧
    (∀ p, defaults.port p = ⟨⟨true, true, true, true⟩, 0xFFFF#16, 60000#16, 60000#16⟩) ∧
    ∀ ch, defaults.chan ch = ⟨0#32, 0#16⟩) ∧
  (∀ (set : ChannelSettings) (ginh : Bool), startChannel set ginh = ⟨set.key, set.guard,
    if set.key = 0#32 then .unbound
    else if set.guard = 0#16 then .idle else .guard (set.guard.setWidth 32), ginh⟩) ∧
  ∀ row : Row,
    let byte := fun i : Nat => (row.toList.getD i 0#8 : Byte)
    let half := fun i : Nat => (byte i ++ byte (i + 1) : Half)
    let valid := (∃ i : Fin 32, row[i] ≠ 0xFF#8) ∧ crc16 (row.toList.take 30) = half 30
    (valid → readFactory row = some
      { vendor := half 0, part := half 2, revision := byte 4, serial := half 5 ++ half 7
        trim := half 9 }) ∧
    (¬valid → readFactory row = none)

/-- What begins a device reset, and the cause it records: BROWNOUT, POWER_ON, PIN; a part in IN_RESET keeps
its cause at a low RST and at a brownout; the power-on level clears the supply monitor. In the tick of a
RESTART's reset a low RST or a brownout is a condition that begins during IN_RESET and leaves the recorded
cause (log 32). ResetCleared has what every reset leaves, the row in progress with it (log 8), and the
receive buffer empty (log 12); the order of the supply levels is the model's reading (log 16). -/
def Obligations.ResetCauses : Prop :=
  ∀ (s : State),
    let recorded := fun cause : ResetCause => if s.restartTick then s.supply.cause else some cause
    (s.device ≠ .inReset → ∃ t, exec .brownout s = .next t ∧ ResetCleared s t ∧
      t.supply = ⟨.held, true, recorded .brownout⟩ ∧ t.restartTick = s.restartTick) ∧
    (s.device ≠ .inReset → ∃ t, exec .rstTakenLow s = .next t ∧
      ResetCleared { s with rstLow := true } t ∧
      t.supply = { s.supply with cause := recorded .pin } ∧ t.restartTick = s.restartTick) ∧
    (s.device = .inReset → exec .rstTakenLow s = .next { s with rstLow := true }) ∧
    (s.device = .inReset → exec .brownout s = .next s) ∧
    (s.supply.region ≠ .off → exec .powerOn s = .next s) ∧
    (s.supply.region = .off → ∃ t, exec .powerOn s = .next t ∧ ResetCleared s t ∧
      t.supply = ⟨.held, true, some .powerOn⟩ ∧ t.restartTick = false) ∧
    (∃ t, exec .supplyBelowPowerOnLevel s = .next t ∧ t.supply = ⟨.off, false, none⟩ ∧
      t.restartTick = false ∧
      (s.device ≠ .inReset → ResetCleared s t) ∧
      (s.device = .inReset → t = { s with supply := t.supply, restartTick := false }))

/-- What leaves IN_RESET: the release level with RST high, RST taken as high with the supply above the release
level, and the end of the RESTART hold, which begins the reset with cause RESTART in the same event. The part
then stands in BOOT with what steps 1 to 4 select (log 26). That a supply which has sagged no further than the
brownout threshold counts as above the release level is the model's choice (log 35). A row that finds no hold
(log 17) or another supply level (log 16) changes nothing. The receive buffer after a reset is log 12, the
level that SDO is driven with where CSn is low already log 30, and the tick of a RESTART log 32. -/
def Obligations.LeavingReset : Prop :=
  ∀ (s : State),
    (s.supply.region = .held → s.device = .inReset → s.rstLow = false →
      ∃ t, exec .supplyRelease s = .next t ∧ BootSelected s t ∧
        t.supply = { s.supply with region := .released }) ∧
    (s.supply.region = .held → s.device ≠ .inReset ∨ s.rstLow = true →
      exec .supplyRelease s = .next { s with supply := { s.supply with region := .released } }) ∧
    (s.supply.region ≠ .held → exec .supplyRelease s = .next s) ∧
    (s.device = .inReset → s.supply.region = .released →
      ∃ t, exec .rstTakenHigh s = .next t ∧ BootSelected { s with rstLow := false } t ∧
        t.supply = s.supply) ∧
    (s.device ≠ .inReset ∨ s.supply.region ≠ .released →
      exec .rstTakenHigh s = .next { s with rstLow := false }) ∧
    (s.hold = .none → exec .restartHoldEnd s = .next s) ∧
    (s.hold ≠ .none → s.supply.region = .released → s.rstLow = false →
      ∃ t u, exec .restartHoldEnd s = .next t ∧ ResetCleared s u ∧ BootSelected u t ∧
        t.supply = { s.supply with cause := some .restart } ∧ u.restartTick = true) ∧
    (s.hold ≠ .none → s.supply.region ≠ .released ∨ s.rstLow = true →
      ∃ t, exec .restartHoldEnd s = .next t ∧ ResetCleared s t ∧
        t.supply = { s.supply with cause := some .restart } ∧ t.restartTick = true)

/-- The supply-low flag: set by its event in every device state above the power-on level, cleared by its
event, at which an idle engine serves its inputs, the advance first; set by a brownout in IN_RESET. An
event that the supply's level rules out changes nothing: the model's choice (log 16). -/
def Obligations.SupplyLevels : Prop :=
  ∀ (s : State),
    (s.supply.region = .off → exec .supplyLowSet s = .next s) ∧
    (s.supply.region ≠ .released → exec .supplyLowClear s = .next s) ∧
    (s.device ≠ .inReset ∨ s.supply.region ≠ .released →
      exec .supplyBelowBrownoutInReset s = .next s) ∧
    (s.supply.region ≠ .off →
      exec .supplyLowSet s = .next { s with supply := { s.supply with low := true } }) ∧
    (s.supply.region = .released →
      let clear := { s with supply := { s.supply with low := false } }
      (s.store.engine ≠ .idle → exec .supplyLowClear s = .next clear) ∧
      (s.store.engine = .idle → ∃ t, exec .supplyLowClear s = .next t ∧ InputsServed clear t)) ∧
    (s.device = .inReset → s.supply.region = .released →
      exec .supplyBelowBrownoutInReset s =
        .next { s with supply := { s.supply with region := .held, low := true } })

/-- The row an advance asks for: the other row beside an active one, the corrupt one beside a blank one, and
row A of two blank ones; row A where the table of R67 has no line is the model's choice (log 23). RESTART
from an ATTACHED port with CONFIGURE places OK and begins the hold; BOOT_END in BOOT makes the part READY and
requests the first advance of the boot, started where supply-low is clear. The tick of a RESTART's reset,
which is over here, is the model's own state (log 32). -/
def Obligations.RestartAndBootEnd : Prop :=
  (∀ a b, advanceTarget (some .a) a b = .b ∧ advanceTarget (some .b) a b = .a ∧
    advanceTarget none a b = if a = .blank ∧ b = .corrupt then .b else .a) ∧
  (∀ (s : State) (p : Port) (tag : BitVec 4), s.takenTag p (.restart p) = some tag →
    ((s.port p).attached = false → exec (.restart p) s =
      .next (s.replyOnly p tag (.restart p) .detached .none)) ∧
    ((s.port p).attached = true → (s.settings p).rights.configure = false → exec (.restart p) s =
      .next (s.replyOnly p tag (.restart p) .noRight .none)) ∧
    ((s.port p).attached = true → (s.settings p).rights.configure = true → exec (.restart p) s =
      .next ({ s with hold := .holding }.replyOnly p tag (.restart p) .ok .none))) ∧
  ∀ (s : State),
    (s.device ≠ .boot → exec .bootEnd s = .next s) ∧
    (s.device = .boot → s.tok.state ≠ .advancing →
      exec .bootEnd s = .next { s with device := .ready, restartTick := false }) ∧
    (s.device = .boot → s.tok.state = .advancing → s.tok.G = s.tok.F → s.tok.F ≠ maxWord →
      s.store.engine = .idle → s.store.commitInput = none →
      let floor := if 4294967295 < s.tok.F.toNat + 256 then maxWord else s.tok.F + 256#32
      let req : RowRequest := ⟨.reserve (advanceTarget s.tok.active
        (reserveClass (s.store.row (.reserve .a))) (reserveClass (s.store.row (.reserve .b)))),
        reserveRow floor, .tokenUnit⟩
      exec .bootEnd s = .next { s with device := .ready, restartTick := false, store :=
        (if s.supply.low then { s.store with advanceInput := some req }
          else { s.store with advanceInput := none, engine := .busy req .first .erase }) })

/-! ### Laws of every step -/

/-- Row 0 is never a target: no row of the table changes the factory row. Within one boot the effective
configuration, and with it the keys and guard intervals of the channels, does not change. -/
def Obligations.FactoryRowAndConfigurationFixed : Prop :=
  ∀ (c : Instr) (s t : State), exec c s = .next t →
    t.store.factoryRow = s.store.factoryRow ∧
    (s.device = .ready → t.device = .ready →
      t.cfg.effective = s.cfg.effective ∧
      ∀ ch, (t.chan ch).key = (s.chan ch).key ∧ (t.chan ch).guard = (s.chan ch).guard)

/-- The guard law within one boot: a channel in GUARD stays there, its line low and its deadline as it
was, until the deadline is reached. -/
def Obligations.GuardLaw : Prop :=
  ∀ (c : Instr) (s t : State) (ch : Channel) (deadline : Word),
    exec c s = .next t → s.device = .ready → t.device = .ready →
    (s.chan ch).state = .guard deadline → deadline ≠ s.now →
    (t.chan ch).state = .guard deadline ∧ (t.chan ch).lineHigh = false

/-- Every row keeps G at or below F, and every holding's token below G; and no request waits at an idle engine
with supply-low clear. -/
def Obligations.TokenInvariantsKept : Prop :=
  ∀ (s t : State), step s = .next t →
    (TokenInv s → TokenInv t) ∧ (HoldingTokenInv s → HoldingTokenInv t)

/-- Every row keeps the claim table: no two records of one key, no record without an entry, no port twice on
a record, an EXCLUSIVE holding alone, RESERVED at the head alone, each claim in its slot and each slot with
its claim, at most two notices for a slot and 16 in a queue, and nothing left to a DETACHED port. -/
def Obligations.ClaimTableInvariantKept : Prop :=
  ∀ (s t : State), step s = .next t → ClaimTableInv s → ClaimTableInv t

/-- Every row keeps the gate: a channel is UNBOUND exactly without a key; its line is high only while its key
has an EXCLUSIVE holding and GINH, as it has taken it, is released; in IDLE and GUARD its key has none. The
premises are invariants of their own (ClaimTableInvariantKept, DeviceAndLinkInvariantsKept). -/
def Obligations.GateInvariantKept : Prop :=
  ∀ (s t : State), step s = .next t → ClaimTableInv s → DeviceInv s → GateInv s → GateInv t

/-- Every row keeps the device state and the link: IN_RESET exactly while a reset condition holds, nothing
claimed and no line high outside READY; SDO high-impedance with CSn high and in IN_RESET, else driven. The
tick of a RESTART is the model's own state (log 32); what counts as a supply below the release level is the
model's choice (log 35). -/
def Obligations.DeviceAndLinkInvariantsKept : Prop :=
  ∀ (s t : State), step s = .next t → (DeviceInv s → DeviceInv t) ∧ (LinkInv s → LinkInv t)

/-- The committed floor never falls, across device resets and losses of supply at any moment; a part that
enters BOOT starts its tokens at it; and G, the next token, never falls up to the next device reset. With
TokenInvariantsKept every token issued lies below the floor. FloorInv rests on what torn and failed rows
read as (logs 8, 9). -/
def Obligations.CommittedFloorNeverFalls : Prop :=
  ∀ (s t : State), step s = .next t →
    (TokenInv s → FloorInv s → FloorInv t ∧ s.committedFloor ≤ t.committedFloor ∧
      (s.device ≠ .boot → t.device = .boot → t.tok.G = t.committedFloor)) ∧
    (t.device = .ready → s.tok.G ≤ t.tok.G)

/-- Every row keeps the configuration unit: what each staging state has, where the rows of a commit stand,
the newest stored image out of a commit's reach, the ranges of the configuration in force. And the law of
the frozen store: once it is frozen it stays so, across device resets too, no commit row is requested or
programmed, and the configuration rows stay as they are. The premises are invariants
(TokenInvariantsKept, CommittedFloorNeverFalls). -/
def Obligations.ConfigurationInvariantKept : Prop :=
  ∀ (s t : State), step s = .next t → TokenInv s → FloorInv s → ConfigInv s →
    ConfigInv t ∧
    (s.storeIsFrozen → t.storeIsFrozen ∧ s.noCommitRow ∧ t.noCommitRow ∧
      ∀ side, t.store.row (.copyOne side) = s.store.row (.copyOne side) ∧
        t.store.row (.copyTwo side) = s.store.row (.copyTwo side))

/-- Every row keeps the deadlines: a running lease or wait deadline lies 0 to 60000 ticks ahead of now, a
guard deadline 0 to 10000 and no more than its channel's interval; the leases stored in waiter entries are in
range. TICK keeps it because what is due is taken before now advances (log 5). The premises are invariants
(ClaimTableInvariantKept, DeviceAndLinkInvariantsKept, ConfigurationInvariantKept). -/
def Obligations.DeadlineInvariantKept : Prop :=
  ∀ (s t : State), step s = .next t → ClaimTableInv s → DeviceInv s → ConfigInv s → DeadlineInv s →
    DeadlineInv t

end Statements
end

