-- ==== Sys2Proof/Laws/Bytes.lean ====
section
/-! SUPPORT. Bytes, fields and bits read back as they were written, and what a frame built from its
parts splits into. -/

namespace Sys2Proof

@[simp] theorem half_halfBytes (h : Half) :
    half (h.extractLsb' 8 8) (h.extractLsb' 0 8) = h := by
  apply BitVec.eq_of_getLsbD_eq
  intro i hi
  simp only [half, BitVec.getLsbD_append, BitVec.getLsbD_extractLsb']
  split
  · simp; omega
  · have : i - 8 < 8 := by omega
    simp [this, show 8 + (i - 8) = i by omega]

@[simp] theorem word_wordBytes (w : Word) :
    word (w.extractLsb' 24 8) (w.extractLsb' 16 8) (w.extractLsb' 8 8) (w.extractLsb' 0 8) = w := by
  apply BitVec.eq_of_getLsbD_eq
  intro i hi
  simp only [word, BitVec.getLsbD_append, BitVec.getLsbD_extractLsb']
  repeat' split
  · simp; omega
  · have : i - 8 < 8 := by omega
    simp [this, show 8 + (i - 8) = i by omega]
  · have : i - 8 - 8 < 8 := by omega
    simp [this, show 16 + (i - 8 - 8) = i by omega]
  · have : i - 8 - 8 - 8 < 8 := by omega
    simp [this, show 24 + (i - 8 - 8 - 8) = i by omega]

@[simp] theorem byteOfBits_bitsOfByte (b : Byte) :
    byteOfBits (b.getLsbD 7) (b.getLsbD 6) (b.getLsbD 5) (b.getLsbD 4) (b.getLsbD 3) (b.getLsbD 2)
      (b.getLsbD 1) (b.getLsbD 0) = b := by
  revert b; decide +kernel

/-- Bytes read back from their bits, whatever incomplete byte follows. -/
theorem bytesOfBits_bitsOfBytes (bs : List Byte) (tail : List Bool) (h : tail.length < 8) :
    bytesOfBits (bitsOfBytes bs ++ tail) = bs := by
  induction bs with
  | nil =>
    match tail, h with
    | [], _ => rfl
    | [_], _ => rfl
    | [_, _], _ => rfl
    | [_, _, _], _ => rfl
    | [_, _, _, _], _ => rfl
    | [_, _, _, _, _], _ => rfl
    | [_, _, _, _, _, _], _ => rfl
    | [_, _, _, _, _, _, _], _ => rfl
  | cons b bs ih =>
    have e : bitsOfBytes (b :: bs) ++ tail = bitsOfByte b ++ (bitsOfBytes bs ++ tail) := by
      simp [bitsOfBytes]
    rw [e]
    simp only [bitsOfByte, List.cons_append, List.nil_append, bytesOfBits, byteOfBits_bitsOfByte, ih]

end Sys2Proof
end

