-- ==== Sys2Proof/Laws/State.lean ====
section
/-! SUPPORT. What each update of State leaves: one lemma for each field an update does not write, and
what the updates and reads of ports, slots, records and channels say of each other. -/

namespace Sys2Proof.Machine

variable (s : State)

/-! ### setPort -/

@[simp] theorem State.setPort_device (p : Port) (u : PortUnit) :
    (s.setPort p u).device = s.device := rfl
@[simp] theorem State.setPort_hold (p : Port) (u : PortUnit) : (s.setPort p u).hold = s.hold := rfl
@[simp] theorem State.setPort_restartTick (p : Port) (u : PortUnit) :
    (s.setPort p u).restartTick = s.restartTick := rfl
@[simp] theorem State.setPort_now (p : Port) (u : PortUnit) : (s.setPort p u).now = s.now := rfl
@[simp] theorem State.setPort_table (p : Port) (u : PortUnit) :
    (s.setPort p u).table = s.table := rfl
@[simp] theorem State.setPort_slots (p : Port) (u : PortUnit) :
    (s.setPort p u).slots = s.slots := rfl
@[simp] theorem State.setPort_served (p : Port) (u : PortUnit) :
    (s.setPort p u).served = s.served := rfl
@[simp] theorem State.setPort_sessionCounter (p : Port) (u : PortUnit) :
    (s.setPort p u).sessionCounter = s.sessionCounter := rfl
@[simp] theorem State.setPort_availSweep (p : Port) (u : PortUnit) :
    (s.setPort p u).availSweep = s.availSweep := rfl
@[simp] theorem State.setPort_faultSweep (p : Port) (u : PortUnit) :
    (s.setPort p u).faultSweep = s.faultSweep := rfl
@[simp] theorem State.setPort_tok (p : Port) (u : PortUnit) : (s.setPort p u).tok = s.tok := rfl
@[simp] theorem State.setPort_chans (p : Port) (u : PortUnit) :
    (s.setPort p u).chans = s.chans := rfl
@[simp] theorem State.setPort_ginhPin (p : Port) (u : PortUnit) :
    (s.setPort p u).ginhPin = s.ginhPin := rfl
@[simp] theorem State.setPort_store (p : Port) (u : PortUnit) :
    (s.setPort p u).store = s.store := rfl
@[simp] theorem State.setPort_cfg (p : Port) (u : PortUnit) : (s.setPort p u).cfg = s.cfg := rfl
@[simp] theorem State.setPort_supply (p : Port) (u : PortUnit) :
    (s.setPort p u).supply = s.supply := rfl
@[simp] theorem State.setPort_rstLow (p : Port) (u : PortUnit) :
    (s.setPort p u).rstLow = s.rstLow := rfl
@[simp] theorem State.setPort_factory (p : Port) (u : PortUnit) :
    (s.setPort p u).factory = s.factory := rfl
@[simp] theorem State.setPort_pending (p : Port) (u : PortUnit) :
    (s.setPort p u).pending = s.pending := rfl
@[simp] theorem State.setPort_free (p : Port) (u : PortUnit) : (s.setPort p u).free = s.free := rfl

/-! ### modPort -/

@[simp] theorem State.modPort_device (p : Port) (f : PortUnit → PortUnit) :
    (s.modPort p f).device = s.device := rfl
@[simp] theorem State.modPort_hold (p : Port) (f : PortUnit → PortUnit) :
    (s.modPort p f).hold = s.hold := rfl
@[simp] theorem State.modPort_restartTick (p : Port) (f : PortUnit → PortUnit) :
    (s.modPort p f).restartTick = s.restartTick := rfl
@[simp] theorem State.modPort_now (p : Port) (f : PortUnit → PortUnit) :
    (s.modPort p f).now = s.now := rfl
@[simp] theorem State.modPort_table (p : Port) (f : PortUnit → PortUnit) :
    (s.modPort p f).table = s.table := rfl
@[simp] theorem State.modPort_slots (p : Port) (f : PortUnit → PortUnit) :
    (s.modPort p f).slots = s.slots := rfl
@[simp] theorem State.modPort_served (p : Port) (f : PortUnit → PortUnit) :
    (s.modPort p f).served = s.served := rfl
@[simp] theorem State.modPort_sessionCounter (p : Port) (f : PortUnit → PortUnit) :
    (s.modPort p f).sessionCounter = s.sessionCounter := rfl
@[simp] theorem State.modPort_availSweep (p : Port) (f : PortUnit → PortUnit) :
    (s.modPort p f).availSweep = s.availSweep := rfl
@[simp] theorem State.modPort_faultSweep (p : Port) (f : PortUnit → PortUnit) :
    (s.modPort p f).faultSweep = s.faultSweep := rfl
@[simp] theorem State.modPort_tok (p : Port) (f : PortUnit → PortUnit) :
    (s.modPort p f).tok = s.tok := rfl
@[simp] theorem State.modPort_chans (p : Port) (f : PortUnit → PortUnit) :
    (s.modPort p f).chans = s.chans := rfl
@[simp] theorem State.modPort_ginhPin (p : Port) (f : PortUnit → PortUnit) :
    (s.modPort p f).ginhPin = s.ginhPin := rfl
@[simp] theorem State.modPort_store (p : Port) (f : PortUnit → PortUnit) :
    (s.modPort p f).store = s.store := rfl
@[simp] theorem State.modPort_cfg (p : Port) (f : PortUnit → PortUnit) :
    (s.modPort p f).cfg = s.cfg := rfl
@[simp] theorem State.modPort_supply (p : Port) (f : PortUnit → PortUnit) :
    (s.modPort p f).supply = s.supply := rfl
@[simp] theorem State.modPort_rstLow (p : Port) (f : PortUnit → PortUnit) :
    (s.modPort p f).rstLow = s.rstLow := rfl
@[simp] theorem State.modPort_factory (p : Port) (f : PortUnit → PortUnit) :
    (s.modPort p f).factory = s.factory := rfl
@[simp] theorem State.modPort_pending (p : Port) (f : PortUnit → PortUnit) :
    (s.modPort p f).pending = s.pending := rfl
@[simp] theorem State.modPort_free (p : Port) (f : PortUnit → PortUnit) :
    (s.modPort p f).free = s.free := rfl

/-! ### setSlot -/

@[simp] theorem State.setSlot_device (p : Port) (i : SlotIx) (sl : Slot) :
    (s.setSlot p i sl).device = s.device := rfl
@[simp] theorem State.setSlot_hold (p : Port) (i : SlotIx) (sl : Slot) :
    (s.setSlot p i sl).hold = s.hold := rfl
@[simp] theorem State.setSlot_restartTick (p : Port) (i : SlotIx) (sl : Slot) :
    (s.setSlot p i sl).restartTick = s.restartTick := rfl
@[simp] theorem State.setSlot_now (p : Port) (i : SlotIx) (sl : Slot) :
    (s.setSlot p i sl).now = s.now := rfl
@[simp] theorem State.setSlot_table (p : Port) (i : SlotIx) (sl : Slot) :
    (s.setSlot p i sl).table = s.table := rfl
@[simp] theorem State.setSlot_served (p : Port) (i : SlotIx) (sl : Slot) :
    (s.setSlot p i sl).served = s.served := rfl
@[simp] theorem State.setSlot_sessionCounter (p : Port) (i : SlotIx) (sl : Slot) :
    (s.setSlot p i sl).sessionCounter = s.sessionCounter := rfl
@[simp] theorem State.setSlot_availSweep (p : Port) (i : SlotIx) (sl : Slot) :
    (s.setSlot p i sl).availSweep = s.availSweep := rfl
@[simp] theorem State.setSlot_faultSweep (p : Port) (i : SlotIx) (sl : Slot) :
    (s.setSlot p i sl).faultSweep = s.faultSweep := rfl
@[simp] theorem State.setSlot_ports (p : Port) (i : SlotIx) (sl : Slot) :
    (s.setSlot p i sl).ports = s.ports := rfl
@[simp] theorem State.setSlot_tok (p : Port) (i : SlotIx) (sl : Slot) :
    (s.setSlot p i sl).tok = s.tok := rfl
@[simp] theorem State.setSlot_chans (p : Port) (i : SlotIx) (sl : Slot) :
    (s.setSlot p i sl).chans = s.chans := rfl
@[simp] theorem State.setSlot_ginhPin (p : Port) (i : SlotIx) (sl : Slot) :
    (s.setSlot p i sl).ginhPin = s.ginhPin := rfl
@[simp] theorem State.setSlot_store (p : Port) (i : SlotIx) (sl : Slot) :
    (s.setSlot p i sl).store = s.store := rfl
@[simp] theorem State.setSlot_cfg (p : Port) (i : SlotIx) (sl : Slot) :
    (s.setSlot p i sl).cfg = s.cfg := rfl
@[simp] theorem State.setSlot_supply (p : Port) (i : SlotIx) (sl : Slot) :
    (s.setSlot p i sl).supply = s.supply := rfl
@[simp] theorem State.setSlot_rstLow (p : Port) (i : SlotIx) (sl : Slot) :
    (s.setSlot p i sl).rstLow = s.rstLow := rfl
@[simp] theorem State.setSlot_factory (p : Port) (i : SlotIx) (sl : Slot) :
    (s.setSlot p i sl).factory = s.factory := rfl
@[simp] theorem State.setSlot_pending (p : Port) (i : SlotIx) (sl : Slot) :
    (s.setSlot p i sl).pending = s.pending := rfl
@[simp] theorem State.setSlot_free (p : Port) (i : SlotIx) (sl : Slot) :
    (s.setSlot p i sl).free = s.free := rfl

/-! ### freeSlots -/

@[simp] theorem State.freeSlots_device (p : Port) : (s.freeSlots p).device = s.device := rfl
@[simp] theorem State.freeSlots_hold (p : Port) : (s.freeSlots p).hold = s.hold := rfl
@[simp] theorem State.freeSlots_restartTick (p : Port) :
    (s.freeSlots p).restartTick = s.restartTick := rfl
@[simp] theorem State.freeSlots_now (p : Port) : (s.freeSlots p).now = s.now := rfl
@[simp] theorem State.freeSlots_table (p : Port) : (s.freeSlots p).table = s.table := rfl
@[simp] theorem State.freeSlots_served (p : Port) : (s.freeSlots p).served = s.served := rfl
@[simp] theorem State.freeSlots_sessionCounter (p : Port) :
    (s.freeSlots p).sessionCounter = s.sessionCounter := rfl
@[simp] theorem State.freeSlots_availSweep (p : Port) :
    (s.freeSlots p).availSweep = s.availSweep := rfl
@[simp] theorem State.freeSlots_faultSweep (p : Port) :
    (s.freeSlots p).faultSweep = s.faultSweep := rfl
@[simp] theorem State.freeSlots_ports (p : Port) : (s.freeSlots p).ports = s.ports := rfl
@[simp] theorem State.freeSlots_tok (p : Port) : (s.freeSlots p).tok = s.tok := rfl
@[simp] theorem State.freeSlots_chans (p : Port) : (s.freeSlots p).chans = s.chans := rfl
@[simp] theorem State.freeSlots_ginhPin (p : Port) : (s.freeSlots p).ginhPin = s.ginhPin := rfl
@[simp] theorem State.freeSlots_store (p : Port) : (s.freeSlots p).store = s.store := rfl
@[simp] theorem State.freeSlots_cfg (p : Port) : (s.freeSlots p).cfg = s.cfg := rfl
@[simp] theorem State.freeSlots_supply (p : Port) : (s.freeSlots p).supply = s.supply := rfl
@[simp] theorem State.freeSlots_rstLow (p : Port) : (s.freeSlots p).rstLow = s.rstLow := rfl
@[simp] theorem State.freeSlots_factory (p : Port) : (s.freeSlots p).factory = s.factory := rfl
@[simp] theorem State.freeSlots_pending (p : Port) : (s.freeSlots p).pending = s.pending := rfl
@[simp] theorem State.freeSlots_free (p : Port) : (s.freeSlots p).free = s.free := rfl

/-! ### setRecord -/

@[simp] theorem State.setRecord_device (i : RecIx) (r : Option Record) :
    (s.setRecord i r).device = s.device := rfl
@[simp] theorem State.setRecord_hold (i : RecIx) (r : Option Record) :
    (s.setRecord i r).hold = s.hold := rfl
@[simp] theorem State.setRecord_restartTick (i : RecIx) (r : Option Record) :
    (s.setRecord i r).restartTick = s.restartTick := rfl
@[simp] theorem State.setRecord_now (i : RecIx) (r : Option Record) :
    (s.setRecord i r).now = s.now := rfl
@[simp] theorem State.setRecord_slots (i : RecIx) (r : Option Record) :
    (s.setRecord i r).slots = s.slots := rfl
@[simp] theorem State.setRecord_served (i : RecIx) (r : Option Record) :
    (s.setRecord i r).served = s.served := rfl
@[simp] theorem State.setRecord_sessionCounter (i : RecIx) (r : Option Record) :
    (s.setRecord i r).sessionCounter = s.sessionCounter := rfl
@[simp] theorem State.setRecord_availSweep (i : RecIx) (r : Option Record) :
    (s.setRecord i r).availSweep = s.availSweep := rfl
@[simp] theorem State.setRecord_faultSweep (i : RecIx) (r : Option Record) :
    (s.setRecord i r).faultSweep = s.faultSweep := rfl
@[simp] theorem State.setRecord_ports (i : RecIx) (r : Option Record) :
    (s.setRecord i r).ports = s.ports := rfl
@[simp] theorem State.setRecord_tok (i : RecIx) (r : Option Record) :
    (s.setRecord i r).tok = s.tok := rfl
@[simp] theorem State.setRecord_chans (i : RecIx) (r : Option Record) :
    (s.setRecord i r).chans = s.chans := rfl
@[simp] theorem State.setRecord_ginhPin (i : RecIx) (r : Option Record) :
    (s.setRecord i r).ginhPin = s.ginhPin := rfl
@[simp] theorem State.setRecord_store (i : RecIx) (r : Option Record) :
    (s.setRecord i r).store = s.store := rfl
@[simp] theorem State.setRecord_cfg (i : RecIx) (r : Option Record) :
    (s.setRecord i r).cfg = s.cfg := rfl
@[simp] theorem State.setRecord_supply (i : RecIx) (r : Option Record) :
    (s.setRecord i r).supply = s.supply := rfl
@[simp] theorem State.setRecord_rstLow (i : RecIx) (r : Option Record) :
    (s.setRecord i r).rstLow = s.rstLow := rfl
@[simp] theorem State.setRecord_factory (i : RecIx) (r : Option Record) :
    (s.setRecord i r).factory = s.factory := rfl
@[simp] theorem State.setRecord_pending (i : RecIx) (r : Option Record) :
    (s.setRecord i r).pending = s.pending := rfl
@[simp] theorem State.setRecord_free (i : RecIx) (r : Option Record) :
    (s.setRecord i r).free = s.free := rfl

/-! ### setChan -/

@[simp] theorem State.setChan_device (ch : Channel) (c : GateChannel) :
    (s.setChan ch c).device = s.device := rfl
@[simp] theorem State.setChan_hold (ch : Channel) (c : GateChannel) :
    (s.setChan ch c).hold = s.hold := rfl
@[simp] theorem State.setChan_restartTick (ch : Channel) (c : GateChannel) :
    (s.setChan ch c).restartTick = s.restartTick := rfl
@[simp] theorem State.setChan_now (ch : Channel) (c : GateChannel) :
    (s.setChan ch c).now = s.now := rfl
@[simp] theorem State.setChan_table (ch : Channel) (c : GateChannel) :
    (s.setChan ch c).table = s.table := rfl
@[simp] theorem State.setChan_slots (ch : Channel) (c : GateChannel) :
    (s.setChan ch c).slots = s.slots := rfl
@[simp] theorem State.setChan_served (ch : Channel) (c : GateChannel) :
    (s.setChan ch c).served = s.served := rfl
@[simp] theorem State.setChan_sessionCounter (ch : Channel) (c : GateChannel) :
    (s.setChan ch c).sessionCounter = s.sessionCounter := rfl
@[simp] theorem State.setChan_availSweep (ch : Channel) (c : GateChannel) :
    (s.setChan ch c).availSweep = s.availSweep := rfl
@[simp] theorem State.setChan_faultSweep (ch : Channel) (c : GateChannel) :
    (s.setChan ch c).faultSweep = s.faultSweep := rfl
@[simp] theorem State.setChan_ports (ch : Channel) (c : GateChannel) :
    (s.setChan ch c).ports = s.ports := rfl
@[simp] theorem State.setChan_tok (ch : Channel) (c : GateChannel) :
    (s.setChan ch c).tok = s.tok := rfl
@[simp] theorem State.setChan_ginhPin (ch : Channel) (c : GateChannel) :
    (s.setChan ch c).ginhPin = s.ginhPin := rfl
@[simp] theorem State.setChan_store (ch : Channel) (c : GateChannel) :
    (s.setChan ch c).store = s.store := rfl
@[simp] theorem State.setChan_cfg (ch : Channel) (c : GateChannel) :
    (s.setChan ch c).cfg = s.cfg := rfl
@[simp] theorem State.setChan_supply (ch : Channel) (c : GateChannel) :
    (s.setChan ch c).supply = s.supply := rfl
@[simp] theorem State.setChan_rstLow (ch : Channel) (c : GateChannel) :
    (s.setChan ch c).rstLow = s.rstLow := rfl
@[simp] theorem State.setChan_factory (ch : Channel) (c : GateChannel) :
    (s.setChan ch c).factory = s.factory := rfl
@[simp] theorem State.setChan_pending (ch : Channel) (c : GateChannel) :
    (s.setChan ch c).pending = s.pending := rfl
@[simp] theorem State.setChan_free (ch : Channel) (c : GateChannel) :
    (s.setChan ch c).free = s.free := rfl

/-! ### postNotice -/

@[simp] theorem State.postNotice_device (p : Port) (k : NoticeKind) (key : Word) (i : SlotIx) (t : Word) (r : Reason) :
    (s.postNotice p k key i t r).device = s.device := rfl
@[simp] theorem State.postNotice_hold (p : Port) (k : NoticeKind) (key : Word) (i : SlotIx) (t : Word) (r : Reason) :
    (s.postNotice p k key i t r).hold = s.hold := rfl
@[simp] theorem State.postNotice_restartTick (p : Port) (k : NoticeKind) (key : Word) (i : SlotIx) (t : Word)
    (r : Reason) :
    (s.postNotice p k key i t r).restartTick = s.restartTick := rfl
@[simp] theorem State.postNotice_now (p : Port) (k : NoticeKind) (key : Word) (i : SlotIx) (t : Word) (r : Reason) :
    (s.postNotice p k key i t r).now = s.now := rfl
@[simp] theorem State.postNotice_table (p : Port) (k : NoticeKind) (key : Word) (i : SlotIx) (t : Word) (r : Reason) :
    (s.postNotice p k key i t r).table = s.table := rfl
@[simp] theorem State.postNotice_slots (p : Port) (k : NoticeKind) (key : Word) (i : SlotIx) (t : Word) (r : Reason) :
    (s.postNotice p k key i t r).slots = s.slots := rfl
@[simp] theorem State.postNotice_served (p : Port) (k : NoticeKind) (key : Word) (i : SlotIx) (t : Word) (r : Reason) :
    (s.postNotice p k key i t r).served = s.served := rfl
@[simp] theorem State.postNotice_sessionCounter (p : Port) (k : NoticeKind) (key : Word) (i : SlotIx) (t : Word) (r : Reason) :
    (s.postNotice p k key i t r).sessionCounter = s.sessionCounter := rfl
@[simp] theorem State.postNotice_availSweep (p : Port) (k : NoticeKind) (key : Word) (i : SlotIx) (t : Word) (r : Reason) :
    (s.postNotice p k key i t r).availSweep = s.availSweep := rfl
@[simp] theorem State.postNotice_faultSweep (p : Port) (k : NoticeKind) (key : Word) (i : SlotIx) (t : Word) (r : Reason) :
    (s.postNotice p k key i t r).faultSweep = s.faultSweep := rfl
@[simp] theorem State.postNotice_tok (p : Port) (k : NoticeKind) (key : Word) (i : SlotIx) (t : Word) (r : Reason) :
    (s.postNotice p k key i t r).tok = s.tok := rfl
@[simp] theorem State.postNotice_chans (p : Port) (k : NoticeKind) (key : Word) (i : SlotIx) (t : Word) (r : Reason) :
    (s.postNotice p k key i t r).chans = s.chans := rfl
@[simp] theorem State.postNotice_ginhPin (p : Port) (k : NoticeKind) (key : Word) (i : SlotIx) (t : Word) (r : Reason) :
    (s.postNotice p k key i t r).ginhPin = s.ginhPin := rfl
@[simp] theorem State.postNotice_store (p : Port) (k : NoticeKind) (key : Word) (i : SlotIx) (t : Word) (r : Reason) :
    (s.postNotice p k key i t r).store = s.store := rfl
@[simp] theorem State.postNotice_cfg (p : Port) (k : NoticeKind) (key : Word) (i : SlotIx) (t : Word) (r : Reason) :
    (s.postNotice p k key i t r).cfg = s.cfg := rfl
@[simp] theorem State.postNotice_supply (p : Port) (k : NoticeKind) (key : Word) (i : SlotIx) (t : Word) (r : Reason) :
    (s.postNotice p k key i t r).supply = s.supply := rfl
@[simp] theorem State.postNotice_rstLow (p : Port) (k : NoticeKind) (key : Word) (i : SlotIx) (t : Word) (r : Reason) :
    (s.postNotice p k key i t r).rstLow = s.rstLow := rfl
@[simp] theorem State.postNotice_factory (p : Port) (k : NoticeKind) (key : Word) (i : SlotIx) (t : Word) (r : Reason) :
    (s.postNotice p k key i t r).factory = s.factory := rfl
@[simp] theorem State.postNotice_pending (p : Port) (k : NoticeKind) (key : Word) (i : SlotIx) (t : Word) (r : Reason) :
    (s.postNotice p k key i t r).pending = s.pending := rfl
@[simp] theorem State.postNotice_free (p : Port) (k : NoticeKind) (key : Word) (i : SlotIx) (t : Word) (r : Reason) :
    (s.postNotice p k key i t r).free = s.free := rfl

/-! ### placeReply -/

@[simp] theorem State.placeReply_device (p : Port) (tag : BitVec 4) (c : Instr) (st : Status) (f : Fields) :
    (s.placeReply p tag c st f).device = s.device := rfl
@[simp] theorem State.placeReply_hold (p : Port) (tag : BitVec 4) (c : Instr) (st : Status) (f : Fields) :
    (s.placeReply p tag c st f).hold = s.hold := rfl
@[simp] theorem State.placeReply_restartTick (p : Port) (tag : BitVec 4) (c : Instr) (st : Status)
    (f : Fields) :
    (s.placeReply p tag c st f).restartTick = s.restartTick := rfl
@[simp] theorem State.placeReply_now (p : Port) (tag : BitVec 4) (c : Instr) (st : Status) (f : Fields) :
    (s.placeReply p tag c st f).now = s.now := rfl
@[simp] theorem State.placeReply_table (p : Port) (tag : BitVec 4) (c : Instr) (st : Status) (f : Fields) :
    (s.placeReply p tag c st f).table = s.table := rfl
@[simp] theorem State.placeReply_slots (p : Port) (tag : BitVec 4) (c : Instr) (st : Status) (f : Fields) :
    (s.placeReply p tag c st f).slots = s.slots := rfl
@[simp] theorem State.placeReply_served (p : Port) (tag : BitVec 4) (c : Instr) (st : Status) (f : Fields) :
    (s.placeReply p tag c st f).served = s.served := rfl
@[simp] theorem State.placeReply_sessionCounter (p : Port) (tag : BitVec 4) (c : Instr) (st : Status) (f : Fields) :
    (s.placeReply p tag c st f).sessionCounter = s.sessionCounter := rfl
@[simp] theorem State.placeReply_availSweep (p : Port) (tag : BitVec 4) (c : Instr) (st : Status) (f : Fields) :
    (s.placeReply p tag c st f).availSweep = s.availSweep := rfl
@[simp] theorem State.placeReply_faultSweep (p : Port) (tag : BitVec 4) (c : Instr) (st : Status) (f : Fields) :
    (s.placeReply p tag c st f).faultSweep = s.faultSweep := rfl
@[simp] theorem State.placeReply_tok (p : Port) (tag : BitVec 4) (c : Instr) (st : Status) (f : Fields) :
    (s.placeReply p tag c st f).tok = s.tok := rfl
@[simp] theorem State.placeReply_chans (p : Port) (tag : BitVec 4) (c : Instr) (st : Status) (f : Fields) :
    (s.placeReply p tag c st f).chans = s.chans := rfl
@[simp] theorem State.placeReply_ginhPin (p : Port) (tag : BitVec 4) (c : Instr) (st : Status) (f : Fields) :
    (s.placeReply p tag c st f).ginhPin = s.ginhPin := rfl
@[simp] theorem State.placeReply_store (p : Port) (tag : BitVec 4) (c : Instr) (st : Status) (f : Fields) :
    (s.placeReply p tag c st f).store = s.store := rfl
@[simp] theorem State.placeReply_cfg (p : Port) (tag : BitVec 4) (c : Instr) (st : Status) (f : Fields) :
    (s.placeReply p tag c st f).cfg = s.cfg := rfl
@[simp] theorem State.placeReply_supply (p : Port) (tag : BitVec 4) (c : Instr) (st : Status) (f : Fields) :
    (s.placeReply p tag c st f).supply = s.supply := rfl
@[simp] theorem State.placeReply_rstLow (p : Port) (tag : BitVec 4) (c : Instr) (st : Status) (f : Fields) :
    (s.placeReply p tag c st f).rstLow = s.rstLow := rfl
@[simp] theorem State.placeReply_factory (p : Port) (tag : BitVec 4) (c : Instr) (st : Status) (f : Fields) :
    (s.placeReply p tag c st f).factory = s.factory := rfl
@[simp] theorem State.placeReply_pending (p : Port) (tag : BitVec 4) (c : Instr) (st : Status) (f : Fields) :
    (s.placeReply p tag c st f).pending = s.pending := rfl
@[simp] theorem State.placeReply_free (p : Port) (tag : BitVec 4) (c : Instr) (st : Status) (f : Fields) :
    (s.placeReply p tag c st f).free = s.free := rfl

/-! ### replyOnly -/

@[simp] theorem State.replyOnly_device (p : Port) (tag : BitVec 4) (c : Instr) (st : Status) (f : Fields) :
    (s.replyOnly p tag c st f).device = s.device := rfl
@[simp] theorem State.replyOnly_hold (p : Port) (tag : BitVec 4) (c : Instr) (st : Status) (f : Fields) :
    (s.replyOnly p tag c st f).hold = s.hold := rfl
@[simp] theorem State.replyOnly_restartTick (p : Port) (tag : BitVec 4) (c : Instr) (st : Status)
    (f : Fields) :
    (s.replyOnly p tag c st f).restartTick = s.restartTick := rfl
@[simp] theorem State.replyOnly_now (p : Port) (tag : BitVec 4) (c : Instr) (st : Status) (f : Fields) :
    (s.replyOnly p tag c st f).now = s.now := rfl
@[simp] theorem State.replyOnly_table (p : Port) (tag : BitVec 4) (c : Instr) (st : Status) (f : Fields) :
    (s.replyOnly p tag c st f).table = s.table := rfl
@[simp] theorem State.replyOnly_slots (p : Port) (tag : BitVec 4) (c : Instr) (st : Status) (f : Fields) :
    (s.replyOnly p tag c st f).slots = s.slots := rfl
@[simp] theorem State.replyOnly_sessionCounter (p : Port) (tag : BitVec 4) (c : Instr) (st : Status) (f : Fields) :
    (s.replyOnly p tag c st f).sessionCounter = s.sessionCounter := rfl
@[simp] theorem State.replyOnly_availSweep (p : Port) (tag : BitVec 4) (c : Instr) (st : Status) (f : Fields) :
    (s.replyOnly p tag c st f).availSweep = s.availSweep := rfl
@[simp] theorem State.replyOnly_faultSweep (p : Port) (tag : BitVec 4) (c : Instr) (st : Status) (f : Fields) :
    (s.replyOnly p tag c st f).faultSweep = s.faultSweep := rfl
@[simp] theorem State.replyOnly_tok (p : Port) (tag : BitVec 4) (c : Instr) (st : Status) (f : Fields) :
    (s.replyOnly p tag c st f).tok = s.tok := rfl
@[simp] theorem State.replyOnly_chans (p : Port) (tag : BitVec 4) (c : Instr) (st : Status) (f : Fields) :
    (s.replyOnly p tag c st f).chans = s.chans := rfl
@[simp] theorem State.replyOnly_ginhPin (p : Port) (tag : BitVec 4) (c : Instr) (st : Status) (f : Fields) :
    (s.replyOnly p tag c st f).ginhPin = s.ginhPin := rfl
@[simp] theorem State.replyOnly_store (p : Port) (tag : BitVec 4) (c : Instr) (st : Status) (f : Fields) :
    (s.replyOnly p tag c st f).store = s.store := rfl
@[simp] theorem State.replyOnly_cfg (p : Port) (tag : BitVec 4) (c : Instr) (st : Status) (f : Fields) :
    (s.replyOnly p tag c st f).cfg = s.cfg := rfl
@[simp] theorem State.replyOnly_supply (p : Port) (tag : BitVec 4) (c : Instr) (st : Status) (f : Fields) :
    (s.replyOnly p tag c st f).supply = s.supply := rfl
@[simp] theorem State.replyOnly_rstLow (p : Port) (tag : BitVec 4) (c : Instr) (st : Status) (f : Fields) :
    (s.replyOnly p tag c st f).rstLow = s.rstLow := rfl
@[simp] theorem State.replyOnly_factory (p : Port) (tag : BitVec 4) (c : Instr) (st : Status) (f : Fields) :
    (s.replyOnly p tag c st f).factory = s.factory := rfl
@[simp] theorem State.replyOnly_pending (p : Port) (tag : BitVec 4) (c : Instr) (st : Status) (f : Fields) :
    (s.replyOnly p tag c st f).pending = s.pending := rfl
@[simp] theorem State.replyOnly_free (p : Port) (tag : BitVec 4) (c : Instr) (st : Status) (f : Fields) :
    (s.replyOnly p tag c st f).free = s.free := rfl

/-! ### Reads after updates -/

@[simp] theorem State.port_setPort (p q : Port) (u : PortUnit) :
    (s.setPort p u).port q = if q = p then u else s.port q := by
  simp only [State.port, State.setPort, Fin.getElem_fin, Vector.getElem_set, Fin.ext_iff, eq_comm]

@[simp] theorem State.port_modPort (p q : Port) (f : PortUnit → PortUnit) :
    (s.modPort p f).port q = if q = p then f (s.port p) else s.port q := by
  simp [State.modPort]

@[simp] theorem State.slot_setSlot (p q : Port) (i j : SlotIx) (sl : Slot) :
    (s.setSlot p i sl).slot q j = if q = p ∧ j = i then sl else s.slot q j := by
  simp only [State.slot, State.setSlot, Fin.getElem_fin, Vector.getElem_set, Fin.ext_iff]
  by_cases h : p.val = q.val
  · by_cases h' : i.val = j.val
    · simp [h, h']
    · simp [h, h', Ne.symm h']
  · simp [h, Ne.symm h]

@[simp] theorem State.slot_freeSlots (p q : Port) (j : SlotIx) :
    (s.freeSlots p).slot q j = if q = p then .free else s.slot q j := by
  simp only [State.slot, State.freeSlots, Fin.getElem_fin, Vector.getElem_set, Fin.ext_iff]
  by_cases h : p.val = q.val
  · simp [h]
  · simp [h, Ne.symm h]

@[simp] theorem State.record_setRecord (i j : RecIx) (r : Option Record) :
    (s.setRecord i r).record j = if j = i then r else s.record j := by
  simp only [State.record, State.setRecord, Fin.getElem_fin, Vector.getElem_set, Fin.ext_iff, eq_comm]

@[simp] theorem State.chan_setChan (ch d : Channel) (c : GateChannel) :
    (s.setChan ch c).chan d = if d = ch then c else s.chan d := by
  simp only [State.chan, State.setChan, Fin.getElem_fin, Vector.getElem_set, Fin.ext_iff, eq_comm]

@[simp] theorem Record.holder_setHolder (r : Record) (p q : Port) (h : Option Holding) :
    (r.setHolder p h).holder q = if q = p then h else r.holder q := by
  simp only [Record.holder, Record.setHolder, Fin.getElem_fin, Vector.getElem_set, Fin.ext_iff, eq_comm]

@[simp] theorem Record.setHolder_key (r : Record) (p : Port) (h : Option Holding) :
    (r.setHolder p h).key = r.key := rfl

@[simp] theorem Record.setHolder_waiters (r : Record) (p : Port) (h : Option Holding) :
    (r.setHolder p h).waiters = r.waiters := rfl

@[simp] theorem State.setPort_slot (p : Port) (u : PortUnit) (q : Port) (j : SlotIx) :
    (s.setPort p u).slot q j = s.slot q j := rfl
@[simp] theorem State.setPort_record (p : Port) (u : PortUnit) (j : RecIx) :
    (s.setPort p u).record j = s.record j := rfl
@[simp] theorem State.setPort_chan (p : Port) (u : PortUnit) (d : Channel) :
    (s.setPort p u).chan d = s.chan d := rfl
@[simp] theorem State.modPort_slot (p : Port) (f : PortUnit → PortUnit) (q : Port) (j : SlotIx) :
    (s.modPort p f).slot q j = s.slot q j := rfl
@[simp] theorem State.modPort_record (p : Port) (f : PortUnit → PortUnit) (j : RecIx) :
    (s.modPort p f).record j = s.record j := rfl
@[simp] theorem State.modPort_chan (p : Port) (f : PortUnit → PortUnit) (d : Channel) :
    (s.modPort p f).chan d = s.chan d := rfl
@[simp] theorem State.setSlot_port (p : Port) (i : SlotIx) (sl : Slot) (q : Port) :
    (s.setSlot p i sl).port q = s.port q := rfl
@[simp] theorem State.setSlot_record (p : Port) (i : SlotIx) (sl : Slot) (j : RecIx) :
    (s.setSlot p i sl).record j = s.record j := rfl
@[simp] theorem State.setSlot_chan (p : Port) (i : SlotIx) (sl : Slot) (d : Channel) :
    (s.setSlot p i sl).chan d = s.chan d := rfl
@[simp] theorem State.freeSlots_port (p : Port) (q : Port) :
    (s.freeSlots p).port q = s.port q := rfl
@[simp] theorem State.freeSlots_record (p : Port) (j : RecIx) :
    (s.freeSlots p).record j = s.record j := rfl
@[simp] theorem State.freeSlots_chan (p : Port) (d : Channel) :
    (s.freeSlots p).chan d = s.chan d := rfl
@[simp] theorem State.setRecord_port (i : RecIx) (r : Option Record) (q : Port) :
    (s.setRecord i r).port q = s.port q := rfl
@[simp] theorem State.setRecord_slot (i : RecIx) (r : Option Record) (q : Port) (j : SlotIx) :
    (s.setRecord i r).slot q j = s.slot q j := rfl
@[simp] theorem State.setRecord_chan (i : RecIx) (r : Option Record) (d : Channel) :
    (s.setRecord i r).chan d = s.chan d := rfl
@[simp] theorem State.setChan_port (ch : Channel) (c : GateChannel) (q : Port) :
    (s.setChan ch c).port q = s.port q := rfl
@[simp] theorem State.setChan_slot (ch : Channel) (c : GateChannel) (q : Port) (j : SlotIx) :
    (s.setChan ch c).slot q j = s.slot q j := rfl
@[simp] theorem State.setChan_record (ch : Channel) (c : GateChannel) (j : RecIx) :
    (s.setChan ch c).record j = s.record j := rfl
@[simp] theorem State.postNotice_slot (p : Port) (k : NoticeKind) (key : Word) (i : SlotIx) (t : Word) (r : Reason) (q : Port) (j : SlotIx) :
    (s.postNotice p k key i t r).slot q j = s.slot q j := rfl
@[simp] theorem State.postNotice_record (p : Port) (k : NoticeKind) (key : Word) (i : SlotIx) (t : Word) (r : Reason) (j : RecIx) :
    (s.postNotice p k key i t r).record j = s.record j := rfl
@[simp] theorem State.postNotice_chan (p : Port) (k : NoticeKind) (key : Word) (i : SlotIx) (t : Word) (r : Reason) (d : Channel) :
    (s.postNotice p k key i t r).chan d = s.chan d := rfl
@[simp] theorem State.placeReply_slot (p : Port) (tag : BitVec 4) (c : Instr) (st : Status) (f : Fields) (q : Port) (j : SlotIx) :
    (s.placeReply p tag c st f).slot q j = s.slot q j := rfl
@[simp] theorem State.placeReply_record (p : Port) (tag : BitVec 4) (c : Instr) (st : Status) (f : Fields) (j : RecIx) :
    (s.placeReply p tag c st f).record j = s.record j := rfl
@[simp] theorem State.placeReply_chan (p : Port) (tag : BitVec 4) (c : Instr) (st : Status) (f : Fields) (d : Channel) :
    (s.placeReply p tag c st f).chan d = s.chan d := rfl
@[simp] theorem State.replyOnly_slot (p : Port) (tag : BitVec 4) (c : Instr) (st : Status) (f : Fields) (q : Port) (j : SlotIx) :
    (s.replyOnly p tag c st f).slot q j = s.slot q j := rfl
@[simp] theorem State.replyOnly_record (p : Port) (tag : BitVec 4) (c : Instr) (st : Status) (f : Fields) (j : RecIx) :
    (s.replyOnly p tag c st f).record j = s.record j := rfl
@[simp] theorem State.replyOnly_chan (p : Port) (tag : BitVec 4) (c : Instr) (st : Status) (f : Fields) (d : Channel) :
    (s.replyOnly p tag c st f).chan d = s.chan d := rfl

@[simp] theorem State.port_postNotice (p q : Port) (k : NoticeKind) (key : Word) (i : SlotIx)
    (t : Word) (r : Reason) :
    (s.postNotice p k key i t r).port q =
      if q = p then
        { s.port p with
          notices := (s.port p).notices ++ [⟨(s.port p).seq, k, key, i, t, r, s.now⟩]
          seq := (s.port p).seq + 1#8 }
      else s.port q := by
  simp [State.postNotice]

@[simp] theorem State.port_placeReply (p q : Port) (tag : BitVec 4) (c : Instr) (st : Status)
    (f : Fields) :
    (s.placeReply p tag c st f).port q =
      if q = p then { s.port p with slot := .filled ⟨tag, codeOf c, st, false, f⟩ } else s.port q := by
  simp [State.placeReply]

end Sys2Proof.Machine
end

