-- ==== Sys2Proof/Laws/Commands.lean ====
section
/-! SUPPORT. Taking an accepted command: what runCommand and the session check answer. -/

namespace Sys2Proof.Machine

variable {s : State} {p : Port} {tag : BitVec 4} {c : Instr} {body : State → Answer}

/-- A command that the engine takes now is executed whole, and its reply placed. -/
theorem State.runCommand_taken (h : s.takenTag p c = some tag) :
    s.runCommand p c body =
      .next ((body { s with served := p }).st.placeReply p tag c
        (body { s with served := p }).status (body { s with served := p }).fields) := by
  simp only [State.runCommand, h]

/-- A command that the engine does not take now changes nothing. -/
theorem State.runCommand_untaken (h : s.takenTag p c = none) : s.runCommand p c body = .next s := by
  simp only [State.runCommand, h]

/-- A command whose body answers without effect leaves the reply alone. -/
theorem State.runCommand_answer {st : Status} {f : Fields} (h : s.takenTag p c = some tag)
    (hb : body { s with served := p } = ⟨{ s with served := p }, st, f⟩) :
    s.runCommand p c body = .next (s.replyOnly p tag c st f) := by
  rw [State.runCommand_taken h, hb]; rfl

theorem State.whenAttached_attached (h : (s.port p).attached = true) :
    s.whenAttached p body = body s := by simp [State.whenAttached, h]

theorem State.whenAttached_detached (h : (s.port p).attached = false) :
    s.whenAttached p body = s.answer .detached := by simp [State.whenAttached, h]

/-! ### Each command as its body: what exec does once the engine takes it -/

theorem exec_hello (p : Port) (s : State) :
    exec (.hello p) s = s.runCommand p (.hello p)
      (helloBody p) := rfl

theorem exec_bye (p : Port) (s : State) :
    exec (.bye p) s = s.runCommand p (.bye p)
      fun s => s.whenAttached p (byeBody p) := rfl

theorem exec_acquire (p : Port) (key : Word) (mode : Byte) (lease wait : Half) (s : State) :
    exec (.acquire p key mode lease wait) s = s.runCommand p (.acquire p key mode lease wait)
      fun s => s.whenAttached p (acquireBody p key mode lease wait) := rfl

theorem exec_release (p : Port) (key token : Word) (s : State) :
    exec (.release p key token) s = s.runCommand p (.release p key token)
      fun s => s.whenAttached p (releaseBody p key token) := rfl

theorem exec_cancel (p : Port) (key : Word) (s : State) :
    exec (.cancel p key) s = s.runCommand p (.cancel p key)
      fun s => s.whenAttached p (cancelBody p key) := rfl

theorem exec_renew (p : Port) (key token : Word) (lease : Half) (s : State) :
    exec (.renew p key token lease) s = s.runCommand p (.renew p key token lease)
      fun s => s.whenAttached p (renewBody p key token lease) := rfl

theorem exec_verify (p : Port) (key token : Word) (s : State) :
    exec (.verify p key token) s = s.runCommand p (.verify p key token)
      fun s => s.whenAttached p (verifyBody key token) := rfl

theorem exec_peekNotice (p : Port) (s : State) :
    exec (.peekNotice p) s = s.runCommand p (.peekNotice p)
      fun s => s.whenAttached p (peekNoticeBody p) := rfl

theorem exec_ackNotice (p : Port) (seq : Byte) (s : State) :
    exec (.ackNotice p seq) s = s.runCommand p (.ackNotice p seq)
      fun s => s.whenAttached p (ackNoticeBody p seq) := rfl

theorem exec_lookup (p : Port) (key : Word) (s : State) :
    exec (.lookup p key) s = s.runCommand p (.lookup p key)
      fun s => s.whenAttached p (lookupBody p key) := rfl

theorem exec_list (p : Port) (start : Byte) (s : State) :
    exec (.list p start) s = s.runCommand p (.list p start)
      fun s => s.whenAttached p (listBody p start) := rfl

theorem exec_time (p : Port) (s : State) :
    exec (.time p) s = s.runCommand p (.time p)
      fun s => ⟨s, .ok, .now s.now⟩ := rfl

theorem exec_status (p : Port) (s : State) :
    exec (.status p) s = s.runCommand p (.status p)
      fun s => ⟨s, .ok, .status s.statusView⟩ := rfl

theorem exec_ident (p : Port) (s : State) :
    exec (.ident p) s = s.runCommand p (.ident p)
      fun s => ⟨s, .ok, .ident s.factory⟩ := rfl

theorem exec_mySlot (p : Port) (index : Byte) (s : State) :
    exec (.mySlot p index) s = s.runCommand p (.mySlot p index)
      fun s => s.whenAttached p (mySlotBody p index) := rfl

theorem exec_revoke (p : Port) (key : Word) (target : Byte) (s : State) :
    exec (.revoke p key target) s = s.runCommand p (.revoke p key target)
      fun s => s.whenAttached p (revokeBody p key target) := rfl

theorem exec_eject (p : Port) (target : Byte) (s : State) :
    exec (.eject p target) s = s.runCommand p (.eject p target)
      fun s => s.whenAttached p (ejectBody p target) := rfl

theorem exec_restart (p : Port) (s : State) :
    exec (.restart p) s = s.runCommand p (.restart p)
      fun s => s.whenAttached p (restartBody p) := rfl

theorem exec_stageBegin (p : Port) (s : State) :
    exec (.stageBegin p) s = s.runCommand p (.stageBegin p)
      fun s => s.whenAttached p (stageBeginBody p) := rfl

theorem exec_stageSet (p : Port) (item index : Byte) (value : Word) (s : State) :
    exec (.stageSet p item index value) s = s.runCommand p (.stageSet p item index value)
      fun s => s.whenAttached p fun s => s.withOpenImage p (stageSetBody item index value s) := rfl

theorem exec_stageRead (p : Port) (item index : Byte) (s : State) :
    exec (.stageRead p item index) s = s.runCommand p (.stageRead p item index)
      fun s => s.whenAttached p fun s => s.withOpenImage p (stageReadBody item index s) := rfl

theorem exec_stageAbort (p : Port) (s : State) :
    exec (.stageAbort p) s = s.runCommand p (.stageAbort p)
      fun s => s.whenAttached p fun s => s.withOpenImage p fun _ => ⟨{ s with cfg :=
        s.cfg.abort }, .ok, .none⟩ := rfl

theorem exec_commit (p : Port) (s : State) :
    exec (.commit p) s = s.runCommand p (.commit p)
      fun s => s.whenAttached p fun s => s.withOpenImage p (commitBody s) := rfl

theorem exec_stageStatus (p : Port) (s : State) :
    exec (.stageStatus p) s = s.runCommand p (.stageStatus p)
      fun s => s.whenAttached p fun s => ⟨s, .ok, .staging s.cfg.view⟩ := rfl

/-- A command of a DETACHED port that makes the session check is answered DETACHED. -/
theorem State.runCommand_detached (h : s.takenTag p c = some tag)
    (hd : (s.port p).attached = false) :
    s.runCommand p c (fun s => s.whenAttached p body) =
      .next (s.replyOnly p tag c .detached .none) :=
  State.runCommand_answer h (State.whenAttached_detached (s := { s with served := p }) hd)

/-- A command of an ATTACHED port that makes the session check and answers without effect. -/
theorem State.runCommand_attached_answer {st : Status} {f : Fields} (h : s.takenTag p c = some tag)
    (ha : (s.port p).attached = true)
    (hb : body { s with served := p } = ⟨{ s with served := p }, st, f⟩) :
    s.runCommand p c (fun s => s.whenAttached p body) = .next (s.replyOnly p tag c st f) :=
  State.runCommand_answer h
    ((State.whenAttached_attached (s := { s with served := p }) ha).trans hb)

/-- A command of an ATTACHED port that makes the session check is its body and its reply. -/
theorem State.runCommand_attached (h : s.takenTag p c = some tag)
    (ha : (s.port p).attached = true) :
    s.runCommand p c (fun s => s.whenAttached p body) =
      .next ((body { s with served := p }).st.placeReply p tag c
        (body { s with served := p }).status (body { s with served := p }).fields) := by
  have hw : State.whenAttached { s with served := p } p body = body { s with served := p } :=
    State.whenAttached_attached (s := { s with served := p }) ha
  rw [State.runCommand_taken h, hw]

end Sys2Proof.Machine
end

