-- ==== Sys2Proof/Laws/Frame.lean ====
section
/-! SUPPORT. One lemma for each shared operation on claims: what it leaves untouched (ClaimFrame). -/

namespace Sys2Proof.Machine

namespace ClaimFrame

theorem refl (s : State) : ClaimFrame s s := by constructor <;> intros <;> rfl

theorem trans {s t u : State} (h : ClaimFrame s t) (k : ClaimFrame t u) : ClaimFrame s u where
  device := k.device.trans h.device
  hold := k.hold.trans h.hold
  restartTick := k.restartTick.trans h.restartTick
  now := k.now.trans h.now
  served := k.served.trans h.served
  sessionCounter := k.sessionCounter.trans h.sessionCounter
  availSweep := k.availSweep.trans h.availSweep
  port q := by rw [k.port q, h.port q]
  floor := k.floor.trans h.floor
  active := k.active.trans h.active
  bootFloor := k.bootFloor.trans h.bootFloor
  chan ch := by rw [k.chan ch, h.chan ch]
  ginhPin := k.ginhPin.trans h.ginhPin
  rows := k.rows.trans h.rows
  commitInput := k.commitInput.trans h.commitInput
  cfg := k.cfg.trans h.cfg
  supply := k.supply.trans h.supply
  rstLow := k.rstLow.trans h.rstLow
  factory := k.factory.trans h.factory
  pending := k.pending.trans h.pending
  free := k.free.trans h.free

end ClaimFrame

theorem State.setRecord_frame (s : State) (i : RecIx) (r : Option Record) :
    ClaimFrame s (s.setRecord i r) := by constructor <;> intros <;> rfl

theorem State.setSlot_frame (s : State) (p : Port) (i : SlotIx) (sl : Slot) :
    ClaimFrame s (s.setSlot p i sl) := by constructor <;> intros <;> rfl

theorem State.freeSlots_frame (s : State) (p : Port) : ClaimFrame s (s.freeSlots p) := by
  constructor <;> intros <;> rfl

theorem State.postNotice_frame (s : State) (p : Port) (k : NoticeKind) (key : Word) (i : SlotIx)
    (t : Word) (r : Reason) : ClaimFrame s (s.postNotice p k key i t r) := by
  constructor <;> intros <;> first | rfl | skip
  rw [State.port_postNotice]
  split
  · subst_vars; rfl
  · rfl

theorem State.emptyQueue_frame (s : State) (p : Port) :
    ClaimFrame s (s.modPort p fun u => { u with notices := [] }) := by
  constructor <;> intros <;> first | rfl | skip
  rw [State.port_modPort]
  split
  · subst_vars; rfl
  · rfl

/-- A new channel that differs in its state alone. -/
theorem State.setChan_frame (s : State) (ch : Channel) (c : GateChannel)
    (h : c = { s.chan ch with state := c.state }) : ClaimFrame s (s.setChan ch c) := by
  constructor <;> intros <;> first | rfl | skip
  rw [State.chan_setChan]
  split
  · subst_vars; exact h
  · rfl

theorem GateChannel.startReport_eq (c : GateChannel) :
    c.startReport = { c with state := c.startReport.state } := by
  obtain ⟨key, guard, state, ginh⟩ := c
  cases state <;> rfl

theorem GateChannel.endReport_eq (c : GateChannel) (now : Word) :
    c.endReport now = { c with state := (c.endReport now).state } := by
  obtain ⟨key, guard, state, ginh⟩ := c
  cases state <;> rfl

theorem State.reportStart_frame (s : State) (key : Word) (mode : Mode) :
    ClaimFrame s (s.reportStart key mode) := by
  unfold State.reportStart
  split
  · exact s.setChan_frame _ _ (GateChannel.startReport_eq _)
  · exact ClaimFrame.refl s

theorem State.reportEnd_frame (s : State) (key : Word) (mode : Mode) :
    ClaimFrame s (s.reportEnd key mode) := by
  unfold State.reportEnd
  split
  · exact s.setChan_frame _ _ (GateChannel.endReport_eq _ _)
  · exact ClaimFrame.refl s

/-! ### The token unit -/

theorem State.reportFault_frame (s : State) : ClaimFrame s s.reportFault := by
  constructor <;> intros <;> rfl

/-- What a request of an advance leaves: ADVANCING, and the request at the engine or at its input;
nothing else. -/
theorem State.requestAdvance_frame (s : State) : ClaimFrame s s.requestAdvance := by
  unfold State.requestAdvance State.kickEngine
  dsimp only
  split
  · constructor <;> intros <;> rfl
  · split <;> constructor <;> intros <;> rfl

theorem State.lowWaterTest_frame (s : State) : ClaimFrame s s.lowWaterTest := by
  unfold State.lowWaterTest
  split
  · exact s.requestAdvance_frame
  · exact ClaimFrame.refl s

/-- A new token unit with the floor, the active row and the boot floor of the old. -/
theorem State.setTok_frame (s : State) (k : TokenUnit) (hF : k.F = s.tok.F)
    (ha : k.active = s.tok.active) (hb : k.bootFloor = s.tok.bootFloor) :
    ClaimFrame s { s with tok := k } := by
  constructor <;> intros <;> first | rfl | assumption

theorem State.drawToken_frame (s : State) : ClaimFrame s s.drawToken := by
  unfold State.drawToken
  dsimp only
  split
  · refine ClaimFrame.trans ?_ (State.reportFault_frame _)
    exact s.setTok_frame _ rfl rfl rfl
  · refine ClaimFrame.trans ?_ (State.lowWaterTest_frame _)
    exact s.setTok_frame _ rfl rfl rfl

theorem State.noteDemand_frame (s : State) : ClaimFrame s s.noteDemand := by
  unfold State.noteDemand
  split
  · exact s.setTok_frame _ rfl rfl rfl
  · exact ClaimFrame.refl s

/-! ### Grants -/

theorem State.addHolding_frame (s : State) (i : RecIx) (r : Record) (p : Port) (m : Mode) (l : Half)
    (k : SlotIx) : ClaimFrame s (s.addHolding i r p m l k) :=
  (s.drawToken_frame.trans (State.setRecord_frame _ _ _)).trans (State.setSlot_frame _ _ _ _)

theorem State.grantHead_frame (s : State) (i : RecIx) (r : Record) (w : Waiter) (rest : List Waiter) :
    ClaimFrame s (s.grantHead i r w rest) :=
  ((s.addHolding_frame _ _ _ _ _ _).trans (State.postNotice_frame _ _ _ _ _ _ _)).trans
    (State.reportStart_frame _ _ _)

theorem State.markReserved_frame (s : State) (i : RecIx) (r : Record) (w : Waiter)
    (rest : List Waiter) : ClaimFrame s (s.markReserved i r w rest) := by
  unfold State.markReserved
  split
  · dsimp only
    split
    · exact s.noteDemand_frame
    · exact (s.noteDemand_frame.trans (State.setRecord_frame _ _ _)).trans (State.setSlot_frame _ _ _ _)
  · exact ClaimFrame.refl s

theorem State.retire_frame (s : State) (i : RecIx) : ClaimFrame s (s.retire i) := by
  unfold State.retire
  split
  · exact s.setRecord_frame _ _
  · exact ClaimFrame.refl s

theorem State.grantHeads_frame (n : Nat) (s : State) (i : RecIx) :
    ClaimFrame s (State.grantHeads n s i) := by
  induction n generalizing s with
  | zero => exact ClaimFrame.refl s
  | succ n ih =>
    unfold State.grantHeads
    split
    · exact ClaimFrame.refl s
    · split
      · exact ClaimFrame.refl s
      · split
        · exact (s.grantHead_frame _ _ _ _).trans (ih _)
        · exact s.markReserved_frame _ _ _ _

theorem State.grantPass_frame (s : State) (i : RecIx) : ClaimFrame s (s.grantPass i) :=
  (State.grantHeads_frame _ s i).trans (State.retire_frame _ _)

/-! ### Ends and departures -/

theorem State.settleEnded_frame (s : State) (p : Port) (k : SlotIx) (key token : Word) :
    ClaimFrame s (s.settleEnded p k key token) := s.setSlot_frame _ _ _

theorem State.endHolding_frame (s : State) (i : RecIx) (r : Record) (p : Port) (h : Holding)
    (cause : Option NoticeKind) : ClaimFrame s (s.endHolding i r p h cause) := by
  unfold State.endHolding
  cases cause with
  | none =>
    exact ((s.setRecord_frame _ _).trans (State.settleEnded_frame _ _ _ _ _)).trans
      (State.reportEnd_frame _ _ _)
  | some kind =>
    exact (((s.setRecord_frame _ _).trans (State.postNotice_frame _ _ _ _ _ _ _)).trans
      (State.settleEnded_frame _ _ _ _ _)).trans (State.reportEnd_frame _ _ _)

theorem State.dropWaiter_frame (s : State) (i : RecIx) (r : Record) (w : Waiter)
    (cause : Option Reason) : ClaimFrame s (s.dropWaiter i r w cause) := by
  unfold State.dropWaiter
  cases cause with
  | none => exact (s.setRecord_frame _ _).trans (State.setSlot_frame _ _ _ _)
  | some reason =>
    exact ((s.setRecord_frame _ _).trans (State.postNotice_frame _ _ _ _ _ _ _)).trans
      (State.setSlot_frame _ _ _ _)

theorem State.passOrRetire_frame (s : State) (i : RecIx) (passed : Bool) :
    ClaimFrame s (s.passOrRetire i passed) := by
  cases passed
  · exact s.retire_frame _
  · exact s.grantPass_frame _

theorem State.departWaiter_frame (s : State) (i : RecIx) (r : Record) (w : Waiter)
    (cause : Option Reason) : ClaimFrame s (s.departWaiter i r w cause) := by
  exact (s.dropWaiter_frame _ _ _ _).trans (State.passOrRetire_frame _ _ _)

/-- A fold of operations that keep the frame keeps it. -/
theorem ClaimFrame.foldl {α : Type} (f : State → α → State) (h : ∀ s a, ClaimFrame s (f s a))
    (l : List α) (s : State) : ClaimFrame s (l.foldl f s) := by
  induction l generalizing s with
  | nil => exact ClaimFrame.refl s
  | cons a l ih => exact (h s a).trans (ih _)

theorem State.revokeClaim_frame (i : RecIx) (s : State) (p : Port) :
    ClaimFrame s (State.revokeClaim i s p) := by
  unfold State.revokeClaim
  split
  · exact ClaimFrame.refl s
  · split
    · exact s.endHolding_frame _ _ _ _ _
    · split
      · exact s.dropWaiter_frame _ _ _ _
      · exact ClaimFrame.refl s

theorem State.tearHolding_frame (p : Port) (s : State) (i : RecIx) :
    ClaimFrame s (State.tearHolding p s i) := by
  unfold State.tearHolding
  split
  · exact ClaimFrame.refl s
  · split
    · exact ClaimFrame.refl s
    · exact (s.setRecord_frame _ _).trans (State.reportEnd_frame _ _ _)

theorem State.tearWaiter_frame (p : Port) (s : State) (i : RecIx) :
    ClaimFrame s (State.tearWaiter p s i) := by
  unfold State.tearWaiter
  split
  · exact ClaimFrame.refl s
  · exact s.setRecord_frame _ _

theorem State.passAfterTeardown_frame (before : State) (p : Port) (s : State) (i : RecIx) :
    ClaimFrame s (State.passAfterTeardown before p s i) := by
  exact s.passOrRetire_frame _ _

/-- The staging step of a teardown beside a frame. -/
theorem ClaimFrame.tearStaging {s u : State} (h : ClaimFrame s u) (p : Port) :
    ClaimFrame { s with cfg := s.cfg.tearStaging p } { u with cfg := u.cfg.tearStaging p } :=
  { h with cfg := congrArg (fun c => c.tearStaging p) h.cfg }

/-- What a teardown leaves: the frame of the claim operations, but for the staging (R96). -/
theorem State.tearDown_frame (s : State) (p : Port) :
    ClaimFrame { s with cfg := s.cfg.tearStaging p } (s.tearDown p) := by
  refine ClaimFrame.trans ?_ (ClaimFrame.foldl _ (State.passAfterTeardown_frame s p) _ _)
  have h1 := ClaimFrame.foldl _ (State.tearHolding_frame p) (List.finRange 24) s
  have h2 := h1.trans (ClaimFrame.foldl _ (State.tearWaiter_frame p) (List.finRange 24) _)
  have h3 := (h2.trans (State.emptyQueue_frame _ p)).trans (State.freeSlots_frame _ p)
  exact h3.tearStaging p

/-! ### Expiries, the guard deadline, withdrawals -/

theorem State.expireLease_frame (s : State) (p : Port) (key : Word) :
    ClaimFrame s (s.expireLease p key) := by
  unfold State.expireLease
  split
  · split
    · exact (s.endHolding_frame _ _ _ _ _).trans (State.grantPass_frame _ _)
    · exact ClaimFrame.refl s
  · exact ClaimFrame.refl s

theorem State.expireWait_frame (s : State) (p : Port) (key : Word) :
    ClaimFrame s (s.expireWait p key) := by
  unfold State.expireWait
  split
  · split
    · exact s.departWaiter_frame _ _ _ _
    · exact ClaimFrame.refl s
  · exact ClaimFrame.refl s

theorem State.expireGuard_frame (s : State) (ch : Channel) : ClaimFrame s (s.expireGuard ch) := by
  unfold State.expireGuard State.reportIdle
  split
  · split
    · have h : ClaimFrame s (s.setChan ch { s.chan ch with state := .idle }) :=
        s.setChan_frame _ _ rfl
      split
      · exact h.trans (State.grantPass_frame _ _)
      · exact h
    · exact ClaimFrame.refl s
  all_goals exact ClaimFrame.refl s

theorem State.withdrawOldest_frame (reason : Reason) (s : State) (i : RecIx) :
    ClaimFrame s (State.withdrawOldest reason s i) := by
  unfold State.withdrawOldest
  split
  · exact ClaimFrame.refl s
  · split
    · exact ClaimFrame.refl s
    · exact s.dropWaiter_frame _ _ _ _

theorem State.withdrawRecord_frame (s : State) (reason : Reason) (i : RecIx) :
    ClaimFrame s (s.withdrawRecord reason i) := by
  unfold State.withdrawRecord
  refine ClaimFrame.trans ?_ (State.grantPass_frame _ _)
  generalize s.waiterCount i = n
  induction n with
  | zero => exact ClaimFrame.refl s
  | succ n ih => exact ih.trans (State.withdrawOldest_frame _ _ _)

end Sys2Proof.Machine
end

