-- ==== Sys2Proof/Laws/Link.lean ====
section
/-! SUPPORT. What the pin changes of a transaction row do: each touches its own port alone, and a row is
its changes one after another. -/

namespace Sys2Proof.Machine

/-- The pin changes of a row, one after another. -/
def State.changePins (kind : TransferKind) (p : Port) (s : State) (pins : List PinChange) : State :=
  pins.foldl (State.changePin kind p) s

variable (kind : TransferKind) (p : Port) (s : State)

theorem exec_send (c : PinChange) (pins : List PinChange) :
    exec (.send p c pins) s = .next (s.changePins .send p (c :: pins)) := rfl
theorem exec_fetch (c : PinChange) (pins : List PinChange) :
    exec (.fetch p c pins) s = .next (s.changePins .fetch p (c :: pins)) := rfl
theorem exec_poll (c : PinChange) (pins : List PinChange) :
    exec (.poll p c pins) s = .next (s.changePins .poll p (c :: pins)) := rfl
theorem exec_unrecognisedKindByte (c : PinChange) (pins : List PinChange) :
    exec (.unrecognisedKindByte p c pins) s = .next (s.changePins .unrecognised p (c :: pins)) := rfl

@[simp] theorem State.changePins_nil : s.changePins kind p [] = s := rfl

@[simp] theorem State.changePins_cons (c : PinChange) (pins : List PinChange) :
    s.changePins kind p (c :: pins) = (State.changePin kind p s c).changePins kind p pins := rfl

theorem State.changePins_append (a b : List PinChange) :
    s.changePins kind p (a ++ b) = (s.changePins kind p a).changePins kind p b :=
  List.foldl_append

/-- A pin change is a change of its port's unit and a free value drawn. -/
theorem State.changePin_eq (c : PinChange) :
    ∃ u, State.changePin kind p s c = { s with free := s.free + 1 }.setPort p u := ⟨_, rfl⟩

theorem State.setPort_setPort (u v : PortUnit) : (s.setPort p u).setPort p v = s.setPort p v := by
  simp only [State.setPort, Vector.set_set]

theorem State.setPort_self : s.setPort p (s.port p) = s := by
  simp only [State.setPort, State.port, Fin.getElem_fin, Vector.set_getElem_self]

/-- A row of pin changes is a change of its port's unit and a free value drawn for each. -/
theorem State.changePins_eq (pins : List PinChange) :
    ∃ u, s.changePins kind p pins = { s with free := s.free + pins.length }.setPort p u := by
  induction pins generalizing s with
  | nil => exact ⟨s.port p, (s.setPort_self p).symm⟩
  | cons c pins ih =>
    obtain ⟨u, hu⟩ := s.changePin_eq kind p c
    obtain ⟨v, hv⟩ := ih (State.changePin kind p s c)
    refine ⟨v, ?_⟩
    rw [State.changePins_cons, hv, hu]
    show State.setPort (State.setPort { s with free := s.free + 1 + pins.length } p u) p v = _
    rw [State.setPort_setPort, List.length_cons, Nat.add_assoc, Nat.add_comm 1]

/-- Every other port stays as it is (R136). -/
theorem State.changePins_port_ne (pins : List PinChange) {q : Port} (h : q ≠ p) :
    (s.changePins kind p pins).port q = s.port q := by
  obtain ⟨u, hu⟩ := s.changePins_eq kind p pins
  rw [hu, State.port_setPort, if_neg h]
  rfl

/-! ### One change -/

variable {s} {u : PortUnit} {device : DeviceState} {n : Nat} {c : PinChange}

/-- A level the pin has already is no edge. -/
theorem PortUnit.change_level (h : u.pins.level c = levelOf c) : u.change device p n c = u :=
  if_pos h

/-- In IN_RESET a change moves the pin alone (R136). -/
theorem PortUnit.change_inReset (h : u.pins.level c ≠ levelOf c) :
    u.change .inReset p n c = { u with pins := u.pins.after c } := if_neg h

/-- Outside IN_RESET an edge does what its pin says. -/
theorem PortUnit.change_edge (h : u.pins.level c ≠ levelOf c) (hd : device ≠ .inReset) :
    u.change device p n c = ({ u with pins := u.pins.after c } : PortUnit).edge device p n c := by
  unfold PortUnit.change
  rw [if_neg h]
  cases device <;> first | rfl | exact absurd rfl hd

/-- A row whose kind is that of the transaction, or that meets no complete kind byte, carries the
change. -/
theorem State.port_changePin (h : (s.port p).carries kind = true) :
    (State.changePin kind p s c).port p = (s.port p).change s.device p s.free c := by
  unfold State.changePin
  rw [State.port_setPort, if_pos rfl]
  exact if_pos h

/-- A row of another kind than the transaction's leaves the port as it is (log 28). -/
theorem State.port_changePin_other (h : (s.port p).carries kind = false) :
    (State.changePin kind p s c).port p = s.port p := by
  unfold State.changePin
  rw [State.port_setPort, if_pos rfl]
  simp [h]

end Sys2Proof.Machine
end

