-- ==== Sys2Proof/Laws/Pass.lean ====
section
/-! SUPPORT. How far a grant pass reaches: the token unit's operations leave the claim state alone, and
a pass on one record changes that record, the ports that wait on it and their slots, and the channel of
its key, and nothing else of the claim state (PassLocal). -/

namespace Sys2Proof.Machine

/-! ### The token unit leaves the claim state alone -/

/-- The claim table, the slots, the port units and the channels are the same. -/
structure ClaimStateSame (s t : State) : Prop where
  table : t.table = s.table
  slots : t.slots = s.slots
  ports : t.ports = s.ports
  chans : t.chans = s.chans

namespace ClaimStateSame

theorem record {s t : State} (h : ClaimStateSame s t) (i : RecIx) : t.record i = s.record i := by
  simp only [State.record, h.table]

theorem slot {s t : State} (h : ClaimStateSame s t) (p : Port) (k : SlotIx) :
    t.slot p k = s.slot p k := by simp only [State.slot, h.slots]

theorem port {s t : State} (h : ClaimStateSame s t) (p : Port) : t.port p = s.port p := by
  simp only [State.port, h.ports]

theorem chan {s t : State} (h : ClaimStateSame s t) (ch : Channel) : t.chan ch = s.chan ch := by
  simp only [State.chan, h.chans]

end ClaimStateSame

/-- The token counter does not move when an advance is requested. -/
theorem State.requestAdvance_same (s : State) :
    ClaimStateSame s s.requestAdvance ∧ s.requestAdvance.tok.G = s.tok.G := by
  unfold State.requestAdvance State.kickEngine
  dsimp only
  split
  · exact ⟨⟨rfl, rfl, rfl, rfl⟩, rfl⟩
  · split <;> exact ⟨⟨rfl, rfl, rfl, rfl⟩, rfl⟩

theorem State.lowWaterTest_same (s : State) :
    ClaimStateSame s s.lowWaterTest ∧ s.lowWaterTest.tok.G = s.tok.G := by
  unfold State.lowWaterTest
  split
  · exact s.requestAdvance_same
  · exact ⟨⟨rfl, rfl, rfl, rfl⟩, rfl⟩

/-- A draw advances G by 1 and leaves the claim state alone (R54). -/
theorem State.drawToken_same (s : State) :
    ClaimStateSame s s.drawToken ∧ s.drawToken.tok.G = s.tok.G + 1#32 := by
  unfold State.drawToken
  dsimp only
  split
  · exact ⟨⟨rfl, rfl, rfl, rfl⟩, rfl⟩
  · have h := State.lowWaterTest_same { s with tok := { s.tok with G := s.tok.G + 1#32 } }
    exact ⟨⟨h.1.table, h.1.slots, h.1.ports, h.1.chans⟩, h.2⟩

theorem State.noteDemand_same (s : State) : ClaimStateSame s s.noteDemand := by
  unfold State.noteDemand
  split <;> exact ⟨rfl, rfl, rfl, rfl⟩

/-! ### Reports to the gate unit -/

theorem State.reportStart_eq (s : State) (key : Word) (mode : Mode) :
    ∃ chans, s.reportStart key mode = { s with chans := chans } := by
  unfold State.reportStart
  split
  · exact ⟨_, rfl⟩
  · exact ⟨s.chans, rfl⟩

theorem State.reportEnd_eq (s : State) (key : Word) (mode : Mode) :
    ∃ chans, s.reportEnd key mode = { s with chans := chans } := by
  unfold State.reportEnd
  split
  · exact ⟨_, rfl⟩
  · exact ⟨s.chans, rfl⟩

/-- A start report reaches the channel of the key alone. -/
theorem State.reportStart_chan_ne (s : State) (key : Word) (mode : Mode) (ch : Channel)
    (h : s.boundChannel key ≠ some ch) : (s.reportStart key mode).chan ch = s.chan ch := by
  unfold State.reportStart
  split
  · rename_i c hc
    rw [State.chan_setChan, if_neg]
    rintro rfl
    exact h hc
  · rfl

/-- An end report reaches the channel of the key alone. -/
theorem State.reportEnd_chan_ne (s : State) (key : Word) (mode : Mode) (ch : Channel)
    (h : s.boundChannel key ≠ some ch) : (s.reportEnd key mode).chan ch = s.chan ch := by
  unfold State.reportEnd
  split
  · rename_i c hc
    rw [State.chan_setChan, if_neg]
    rintro rfl
    exact h hc
  · rfl

theorem State.boundChannel_of_cfg {s t : State} (h : t.cfg = s.cfg) (key : Word) :
    t.boundChannel key = s.boundChannel key := by
  simp only [State.boundChannel, h]

/-! ### Waiters -/

theorem Record.waiter_none_iff (r : Record) (q : Port) :
    r.waiter q = none ↔ ∀ w ∈ r.waiters, w.port ≠ q := by
  simp [Record.waiter, List.find?_eq_none]

/-- A port that does not wait in a queue does not wait in its rest, and is not its head. -/
theorem Record.waiter_none_of_cons {r : Record} {w : Waiter} {rest : List Waiter} {q : Port}
    (hw : r.waiters = w :: rest) (h : r.waiter q = none) :
    w.port ≠ q ∧ ∀ v ∈ rest, v.port ≠ q := by
  rw [Record.waiter_none_iff, hw] at h
  exact ⟨h w (by simp), fun v hv => h v (by simp [hv])⟩

/-! ### The pass -/

/-- What a pass on the record at an index reaches. -/
structure PassLocal (s t : State) (i : RecIx) (r : Record) : Prop where
  record_ne : ∀ j, j ≠ i → t.record j = s.record j
  record_eq : ∀ r', t.record i = some r' → r'.key = r.key ∧
    ∀ q, r.waiter q = none → r'.waiter q = none ∧ r'.holder q = r.holder q
  port : ∀ q, r.waiter q = none → t.port q = s.port q
  slot : ∀ q, r.waiter q = none → ∀ k, t.slot q k = s.slot q k
  chan : ∀ ch, s.boundChannel r.key ≠ some ch → t.chan ch = s.chan ch
  cfg : t.cfg = s.cfg

namespace PassLocal

theorem refl {s : State} {i : RecIx} {r : Record} (h : s.record i = some r) : PassLocal s s i r where
  record_ne _ _ := rfl
  record_eq r' h' := by
    rw [h] at h'
    cases h'
    exact ⟨rfl, fun q hq => ⟨hq, rfl⟩⟩
  port _ _ := rfl
  slot _ _ _ := rfl
  chan _ _ := rfl
  cfg := rfl

/-- A first step onto the record `m`, and a pass from there. -/
theorem trans {s t u : State} {i : RecIx} {r m : Record} (h : PassLocal s t i r)
    (hm : t.record i = some m) (k : PassLocal t u i m) : PassLocal s u i r := by
  have hk := h.record_eq m hm
  refine ⟨?_, ?_, ?_, ?_, ?_, k.cfg.trans h.cfg⟩
  · exact fun j hj => (k.record_ne j hj).trans (h.record_ne j hj)
  · intro r' hr'
    refine ⟨(k.record_eq r' hr').1.trans hk.1, fun q hq => ?_⟩
    have hmq := hk.2 q hq
    have hrq := (k.record_eq r' hr').2 q hmq.1
    exact ⟨hrq.1, hrq.2.trans hmq.2⟩
  · exact fun q hq => (k.port q (hk.2 q hq).1).trans (h.port q hq)
  · exact fun q hq j => (k.slot q (hk.2 q hq).1 j).trans (h.slot q hq j)
  · intro ch hch
    refine (k.chan ch ?_).trans (h.chan ch hch)
    rw [State.boundChannel_of_cfg h.cfg, hk.1]
    exact hch

end PassLocal

/-- The record after the grant of its head. -/
def Record.granted (r : Record) (w : Waiter) (rest : List Waiter) (token deadline : Word) : Record :=
  { r with waiters := rest }.setHolder w.port (some ⟨w.mode, token, deadline, w.slot⟩)

theorem State.grantHead_record (s : State) (i j : RecIx) (r : Record) (w : Waiter)
    (rest : List Waiter) :
    (s.grantHead i r w rest).record j =
      if j = i then some (r.granted w rest s.tok.G (s.now + w.lease.setWidth 32))
      else s.record j := by
  unfold State.grantHead State.addHolding
  obtain ⟨chans, h⟩ := State.reportStart_eq ((((s.drawToken.setRecord i (some
    ({ r with waiters := rest }.setHolder w.port (some ⟨w.mode, s.tok.G,
      s.now + w.lease.setWidth 32, w.slot⟩)))).setSlot w.port w.slot (.holding r.key w.mode s.tok.G
        (s.now + w.lease.setWidth 32))).postNotice w.port .granted r.key w.slot s.tok.G .none)) r.key
        w.mode
  dsimp only
  rw [h]
  change State.record (State.setRecord s.drawToken i _) j = _
  rw [State.record_setRecord, s.drawToken_same.1.record]
  rfl

theorem State.grantHead_local (s : State) (i : RecIx) (r : Record) (w : Waiter)
    (rest : List Waiter) (hw : r.waiters = w :: rest) :
    PassLocal s (s.grantHead i r w rest) i r := by
  have hd := s.drawToken_same.1
  refine ⟨?_, ?_, ?_, ?_, ?_, (s.grantHead_frame i r w rest).cfg⟩
  · intro j hj
    rw [State.grantHead_record, if_neg hj]
  · intro r' hr'
    rw [State.grantHead_record, if_pos rfl] at hr'
    cases hr'
    refine ⟨rfl, fun q hq => ?_⟩
    obtain ⟨h1, h2⟩ := Record.waiter_none_of_cons hw hq
    refine ⟨(Record.waiter_none_iff _ _).2 h2, ?_⟩
    rw [Record.granted, Record.holder_setHolder, if_neg (Ne.symm h1)]
    rfl
  · intro q hq
    obtain ⟨h1, -⟩ := Record.waiter_none_of_cons hw hq
    unfold State.grantHead
    obtain ⟨chans, h⟩ := State.reportStart_eq ((s.addHolding i { r with waiters := rest } w.port
      w.mode w.lease w.slot).postNotice w.port .granted r.key w.slot s.tok.G .none) r.key w.mode
    dsimp only
    rw [h]
    change ((s.addHolding i { r with waiters := rest } w.port w.mode w.lease w.slot).postNotice
      w.port .granted r.key w.slot s.tok.G .none).port q = _
    rw [State.port_postNotice, if_neg (Ne.symm h1)]
    exact hd.port q
  · intro q hq k
    obtain ⟨h1, -⟩ := Record.waiter_none_of_cons hw hq
    unfold State.grantHead
    obtain ⟨chans, h⟩ := State.reportStart_eq ((s.addHolding i { r with waiters := rest } w.port
      w.mode w.lease w.slot).postNotice w.port .granted r.key w.slot s.tok.G .none) r.key w.mode
    dsimp only
    rw [h]
    change (s.addHolding i { r with waiters := rest } w.port w.mode w.lease w.slot).slot q k = _
    unfold State.addHolding
    dsimp only
    rw [State.slot_setSlot, if_neg (fun hc => h1 hc.1.symm), State.setRecord_slot]
    exact hd.slot q k
  · intro ch hch
    unfold State.grantHead
    dsimp only
    rw [State.reportStart_chan_ne]
    · exact hd.chan ch
    · rw [State.boundChannel_of_cfg (s := s)]
      · exact hch
      · exact (s.addHolding_frame i { r with waiters := rest } w.port w.mode w.lease w.slot).cfg

theorem State.markReserved_local (s : State) (i : RecIx) (r : Record) (w : Waiter)
    (rest : List Waiter) (hr : s.record i = some r) (hw : r.waiters = w :: rest) :
    PassLocal s (s.markReserved i r w rest) i r := by
  have hd := s.noteDemand_same
  have hcfg := (s.markReserved_frame i r w rest).cfg
  unfold State.markReserved at hcfg ⊢
  by_cases hc : r.compatible w.mode = true
  · rw [if_pos hc] at hcfg ⊢
    dsimp only at hcfg ⊢
    cases hs : w.state with
    | reserved =>
      rw [hs] at hcfg
      refine ⟨fun j _ => hd.record j, fun r' hr' => ?_, fun q _ => hd.port q,
        fun q _ k => hd.slot q k, fun ch _ => hd.chan ch, hcfg⟩
      rw [hd.record, hr] at hr'
      cases hr'
      exact ⟨rfl, fun q hq => ⟨hq, rfl⟩⟩
    | queued =>
      rw [hs] at hcfg
      refine ⟨?_, ?_, ?_, ?_, ?_, hcfg⟩
      · intro j hj
        rw [State.setSlot_record, State.record_setRecord, if_neg hj, hd.record]
      · intro r' hr'
        rw [State.setSlot_record, State.record_setRecord, if_pos rfl] at hr'
        cases hr'
        refine ⟨rfl, fun q hq => ⟨?_, rfl⟩⟩
        obtain ⟨h1, h2⟩ := Record.waiter_none_of_cons hw hq
        rw [Record.waiter_none_iff]
        intro v hv
        rcases List.mem_cons.1 hv with rfl | hv
        · exact h1
        · exact h2 v hv
      · intro q _
        rw [State.setSlot_port, State.setRecord_port, hd.port]
      · intro q hq k
        obtain ⟨h1, -⟩ := Record.waiter_none_of_cons hw hq
        rw [State.slot_setSlot, if_neg (fun hk => h1 hk.1.symm), State.setRecord_slot, hd.slot]
      · intro ch _
        rw [State.setSlot_chan, State.setRecord_chan, hd.chan]
  · rw [if_neg hc]
    exact PassLocal.refl hr

theorem State.grantHeads_local (n : Nat) (s : State) (i : RecIx) (r : Record)
    (hr : s.record i = some r) : PassLocal s (State.grantHeads n s i) i r := by
  induction n generalizing s r with
  | zero => exact PassLocal.refl hr
  | succ n ih =>
    unfold State.grantHeads
    rw [hr]
    dsimp only
    split
    · exact PassLocal.refl hr
    · rename_i w rest hw
      split
      · have hg := State.grantHead_record s i i r w rest
        rw [if_pos rfl] at hg
        exact (s.grantHead_local i r w rest hw).trans hg (ih _ _ hg)
      · exact s.markReserved_local i r w rest hr hw

theorem State.retire_record_ne (s : State) (i j : RecIx) (h : j ≠ i) :
    (s.retire i).record j = s.record j := by
  unfold State.retire
  split
  · rw [State.record_setRecord, if_neg h]
  · rfl

/-- A record that stands after a retirement stood before it, and has an entry. -/
theorem State.retire_record_some {s : State} {i : RecIx} {r : Record}
    (h : (s.retire i).record i = some r) : s.record i = some r ∧ r.isEmpty = false := by
  unfold State.retire at h
  split at h
  · rw [State.record_setRecord, if_pos rfl] at h
    cases h
  · rename_i hn
    refine ⟨h, ?_⟩
    rw [h] at hn
    simpa using hn

theorem State.retire_same (s : State) (i : RecIx) :
    (∀ q, (s.retire i).port q = s.port q) ∧ (∀ q k, (s.retire i).slot q k = s.slot q k) ∧
    ∀ ch, (s.retire i).chan ch = s.chan ch := by
  unfold State.retire
  split <;> exact ⟨fun _ => rfl, fun _ _ => rfl, fun _ => rfl⟩

/-- A retirement reaches no further than a pass. -/
theorem State.retire_local (s : State) (i : RecIx) (r : Record) (hr : s.record i = some r) :
    PassLocal s (s.retire i) i r := by
  obtain ⟨hp, hs, hc⟩ := s.retire_same i
  refine ⟨fun j hj => s.retire_record_ne i j hj, fun r' hr' => ?_, fun q _ => hp q,
    fun q _ k => hs q k, fun ch _ => hc ch, (s.retire_frame i).cfg⟩
  have h' := (State.retire_record_some hr').1
  rw [hr] at h'
  cases h'
  exact ⟨rfl, fun q hq => ⟨hq, rfl⟩⟩

/-- A grant pass on a record changes that record, the ports that wait on it with their slots, and the
channel of its key, and nothing else of the claim state (R13, R14). -/
theorem State.grantPass_local (s : State) (i : RecIx) (r : Record) (hr : s.record i = some r) :
    PassLocal s (s.grantPass i) i r := by
  have h := State.grantHeads_local (s.waiterCount i) s i r hr
  obtain ⟨hp, hs, hc⟩ := State.retire_same (State.grantHeads (s.waiterCount i) s i) i
  refine ⟨?_, ?_, ?_, ?_, ?_, (s.grantPass_frame i).cfg⟩
  · exact fun j hj => (State.retire_record_ne _ i j hj).trans (h.record_ne j hj)
  · exact fun r' hr' => h.record_eq r' (State.retire_record_some hr').1
  · exact fun q hq => (hp q).trans (h.port q hq)
  · exact fun q hq k => (hs q k).trans (h.slot q hq k)
  · exact fun ch hch => (hc ch).trans (h.chan ch hch)

/-- A pass where no record stands changes nothing. -/
theorem State.grantPass_none (s : State) (i : RecIx) (h : s.record i = none) : s.grantPass i = s := by
  have hn : ∀ n, State.grantHeads n s i = s := by
    intro n
    cases n with
    | zero => rfl
    | succ n => unfold State.grantHeads; rw [h]
  unfold State.grantPass
  rw [hn]
  unfold State.retire
  rw [h]
  rfl

/-- A pass on a record without waiters is its retirement. -/
theorem State.grantPass_noWaiters (s : State) (i : RecIx) (r : Record) (hr : s.record i = some r)
    (hw : r.waiters = []) : s.grantPass i = s.retire i := by
  unfold State.grantPass State.waiterCount
  rw [hr]
  simp only [hw, List.length_nil]
  rfl

/-- A pass does not touch a record of another index. -/
theorem State.grantPass_record_ne (s : State) (i j : RecIx) (h : j ≠ i) :
    (s.grantPass i).record j = s.record j := by
  cases hr : s.record i with
  | none => rw [s.grantPass_none i hr]
  | some r => exact (s.grantPass_local i r hr).record_ne j h

/-- What follows removals from a record, pass or bare retirement, reaches that record alone. -/
theorem State.passOrRetire_record_ne (s : State) (i j : RecIx) (passed : Bool) (h : j ≠ i) :
    (s.passOrRetire i passed).record j = s.record j := by
  cases passed
  · exact s.retire_record_ne i j h
  · exact s.grantPass_record_ne i j h

theorem State.passOrRetire_local (s : State) (i : RecIx) (r : Record) (passed : Bool)
    (hr : s.record i = some r) : PassLocal s (s.passOrRetire i passed) i r := by
  cases passed
  · exact s.retire_local i r hr
  · exact s.grantPass_local i r hr

/-! ### The end of a holding, the departure of a waiter -/

theorem State.endHolding_record (s : State) (i j : RecIx) (r : Record) (p : Port) (h : Holding)
    (cause : Option NoticeKind) :
    (s.endHolding i r p h cause).record j =
      if j = i then some (r.setHolder p none) else s.record j := by
  unfold State.endHolding
  dsimp only
  cases cause with
  | none =>
    obtain ⟨chans, hc⟩ := State.reportEnd_eq
      ((s.setRecord i (some (r.setHolder p none))).settleEnded p h.slot r.key h.token) r.key h.mode
    dsimp only
    rw [hc]
    exact State.record_setRecord s i j _
  | some kind =>
    obtain ⟨chans, hc⟩ := State.reportEnd_eq
      (((s.setRecord i (some (r.setHolder p none))).postNotice p kind r.key h.slot h.token
        .none).settleEnded p h.slot r.key h.token) r.key h.mode
    dsimp only
    rw [hc]
    exact State.record_setRecord s i j _

/-- The port of an ended holding: its notice, if the cause has one, and nothing else (R24). -/
theorem State.endHolding_port (s : State) (i : RecIx) (r : Record) (p q : Port) (h : Holding)
    (cause : Option NoticeKind) :
    (s.endHolding i r p h cause).port q =
      match cause with
      | none => s.port q
      | some kind =>
        if q = p then
          { s.port p with
            notices := (s.port p).notices ++
              [⟨(s.port p).seq, kind, r.key, h.slot, h.token, .none, s.now⟩]
            seq := (s.port p).seq + 1#8 }
        else s.port q := by
  unfold State.endHolding
  dsimp only
  cases cause with
  | none =>
    obtain ⟨chans, hc⟩ := State.reportEnd_eq
      ((s.setRecord i (some (r.setHolder p none))).settleEnded p h.slot r.key h.token) r.key h.mode
    dsimp only
    rw [hc]
    rfl
  | some kind =>
    obtain ⟨chans, hc⟩ := State.reportEnd_eq
      (((s.setRecord i (some (r.setHolder p none))).postNotice p kind r.key h.slot h.token
        .none).settleEnded p h.slot r.key h.token) r.key h.mode
    dsimp only
    rw [hc]
    exact State.port_postNotice (s.setRecord i (some (r.setHolder p none))) p q kind r.key h.slot
      h.token .none

/-- The slot of an ended holding: PINNED with a notice of the cause, and by the notices that name it
without one (R10, R24). -/
theorem State.endHolding_slot (s : State) (i : RecIx) (r : Record) (p q : Port) (k : SlotIx)
    (h : Holding) (cause : Option NoticeKind) :
    (s.endHolding i r p h cause).slot q k =
      if q = p ∧ k = h.slot then
        if cause = none ∧ s.noticesNaming p h.slot = 0 then .free else .pinned r.key h.token
      else s.slot q k := by
  unfold State.endHolding
  dsimp only
  cases cause with
  | none =>
    obtain ⟨chans, hc⟩ := State.reportEnd_eq
      ((s.setRecord i (some (r.setHolder p none))).settleEnded p h.slot r.key h.token) r.key h.mode
    dsimp only
    rw [hc]
    change (State.settleEnded (s.setRecord i (some (r.setHolder p none))) p h.slot r.key
      h.token).slot q k = _
    rw [State.settleEnded, State.slot_setSlot]
    simp only [State.setRecord_slot, true_and]
    rfl
  | some kind =>
    obtain ⟨chans, hc⟩ := State.reportEnd_eq
      (((s.setRecord i (some (r.setHolder p none))).postNotice p kind r.key h.slot h.token
        .none).settleEnded p h.slot r.key h.token) r.key h.mode
    dsimp only
    rw [hc]
    change (State.settleEnded ((s.setRecord i (some (r.setHolder p none))).postNotice p kind r.key
      h.slot h.token .none) p h.slot r.key h.token).slot q k = _
    have hn : ((s.setRecord i (some (r.setHolder p none))).postNotice p kind r.key h.slot h.token
        .none).noticesNaming p h.slot ≠ 0 := by
      simp [State.noticesNaming]
    rw [State.settleEnded, State.slot_setSlot, if_neg hn]
    simp only [State.postNotice_slot, State.setRecord_slot, reduceCtorEq, false_and, if_false]

/-- The channels after a holding's end: the end report reaches the channel of the key alone (R30). -/
theorem State.endHolding_chan_ne (s : State) (i : RecIx) (r : Record) (p : Port) (h : Holding)
    (cause : Option NoticeKind) (ch : Channel) (hc : s.boundChannel r.key ≠ some ch) :
    (s.endHolding i r p h cause).chan ch = s.chan ch := by
  unfold State.endHolding
  dsimp only
  cases cause with
  | none => exact State.reportEnd_chan_ne _ _ _ _ hc
  | some kind => exact State.reportEnd_chan_ne _ _ _ _ hc

theorem State.dropWaiter_record (s : State) (i j : RecIx) (r : Record) (w : Waiter)
    (cause : Option Reason) :
    (s.dropWaiter i r w cause).record j =
      if j = i then some (r.dropWaiter w.port) else s.record j := by
  unfold State.dropWaiter
  cases cause <;> exact State.record_setRecord s i j _

/-- The port of a waiter that leaves: its WITHDRAWN notice, if the cause has one (R25). -/
theorem State.dropWaiter_port (s : State) (i : RecIx) (r : Record) (w : Waiter)
    (cause : Option Reason) (q : Port) :
    (s.dropWaiter i r w cause).port q =
      match cause with
      | none => s.port q
      | some reason =>
        if q = w.port then
          { s.port w.port with
            notices := (s.port w.port).notices ++
              [⟨(s.port w.port).seq, .withdrawn, r.key, w.slot, 0#32, reason, s.now⟩]
            seq := (s.port w.port).seq + 1#8 }
        else s.port q := by
  unfold State.dropWaiter
  cases cause with
  | none => rfl
  | some reason =>
    exact State.port_postNotice (s.setRecord i (some (r.dropWaiter w.port))) w.port q .withdrawn r.key
      w.slot 0#32 reason

/-- The slot of a waiter that leaves: PINNED with a notice, FREE without one (R25). -/
theorem State.dropWaiter_slot (s : State) (i : RecIx) (r : Record) (w : Waiter)
    (cause : Option Reason) (q : Port) (k : SlotIx) :
    (s.dropWaiter i r w cause).slot q k =
      if q = w.port ∧ k = w.slot then
        if cause = none then .free else .pinned r.key 0#32
      else s.slot q k := by
  unfold State.dropWaiter
  cases cause with
  | none =>
    dsimp only
    rw [State.slot_setSlot, State.setRecord_slot]
    rfl
  | some reason =>
    dsimp only
    rw [State.slot_setSlot, State.postNotice_slot, State.setRecord_slot]
    simp only [reduceCtorEq, if_false]

theorem State.dropWaiter_chan (s : State) (i : RecIx) (r : Record) (w : Waiter)
    (cause : Option Reason) (ch : Channel) : (s.dropWaiter i r w cause).chan ch = s.chan ch := by
  unfold State.dropWaiter
  cases cause <;> rfl

/-- A record without a port's entry names that port in its queue no more, and keeps its holders. -/
theorem Record.waiter_dropWaiter (r : Record) (p q : Port) :
    (r.dropWaiter p).waiter q = if q = p then none else r.waiter q := by
  unfold Record.dropWaiter Record.waiter
  dsimp only
  rw [List.find?_filter]
  split
  · subst_vars
    simp [List.find?_eq_none]
  · rename_i h
    congr 1
    funext w
    by_cases hw : w.port = q
    · subst hw
      simp [h]
    · simp [hw]

end Sys2Proof.Machine
end

