-- ==== Sys2Proof/Laws/PerInstr.lean ====
section
/-! SUPPORT. The family Wire: what the command table of 11.2 says of each row as a frame. A row that is a
host command is read back from its code and parameters, and its code has the length byte of the
parameters it carries; a row that is none has no frame. -/

namespace Sys2Proof.Laws.Wire

/-- The code and parameters of a host command name that command again, at the length of its code. -/
def Statement (i : Instr) : Prop :=
  ∀ p code params, wireOf i = some (p, code, params) →
    commandOf p code params = some i ∧ lengthOfCode code = some (params.length + 3)

/-- What the table gives a row decides its statement. -/
theorem of_wire {i : Instr} {p : Port} {code : Byte} {params : List Byte}
    (h : wireOf i = some (p, code, params))
    (hc : commandOf p code params = some i) (hl : lengthOfCode code = some (params.length + 3)) :
    Statement i := by
  intro p' code' params' h'
  rw [h] at h'
  cases h'
  exact ⟨hc, hl⟩

/-- A row that is no host command has no frame. -/
theorem of_none {i : Instr} (h : wireOf i = none) : Statement i := by
  intro p code params h'
  rw [h] at h'
  cases h'

theorem hello (p : Port) : Statement (.hello p) := of_wire rfl rfl rfl
theorem bye (p : Port) : Statement (.bye p) := of_wire rfl rfl rfl
theorem acquire (p : Port) (key : Word) (mode : Byte) (lease wait : Half) :
    Statement (.acquire p key mode lease wait) :=
  of_wire rfl (by show some _ = some _; simp only [word_wordBytes, half_halfBytes]) rfl
theorem release (p : Port) (key token : Word) : Statement (.release p key token) :=
  of_wire rfl (by show some _ = some _; simp only [word_wordBytes]) rfl
theorem cancel (p : Port) (key : Word) : Statement (.cancel p key) :=
  of_wire rfl (by show some _ = some _; simp only [word_wordBytes]) rfl
theorem renew (p : Port) (key token : Word) (lease : Half) : Statement (.renew p key token lease) :=
  of_wire rfl (by show some _ = some _; simp only [word_wordBytes, half_halfBytes]) rfl
theorem verify (p : Port) (key token : Word) : Statement (.verify p key token) :=
  of_wire rfl (by show some _ = some _; simp only [word_wordBytes]) rfl
theorem peekNotice (p : Port) : Statement (.peekNotice p) := of_wire rfl rfl rfl
theorem ackNotice (p : Port) (seq : Byte) : Statement (.ackNotice p seq) := of_wire rfl rfl rfl
theorem lookup (p : Port) (key : Word) : Statement (.lookup p key) :=
  of_wire rfl (by show some _ = some _; simp only [word_wordBytes]) rfl
theorem list (p : Port) (start : Byte) : Statement (.list p start) := of_wire rfl rfl rfl
theorem time (p : Port) : Statement (.time p) := of_wire rfl rfl rfl
theorem status (p : Port) : Statement (.status p) := of_wire rfl rfl rfl
theorem ident (p : Port) : Statement (.ident p) := of_wire rfl rfl rfl
theorem mySlot (p : Port) (index : Byte) : Statement (.mySlot p index) := of_wire rfl rfl rfl
theorem revoke (p : Port) (key : Word) (target : Byte) : Statement (.revoke p key target) :=
  of_wire rfl (by show some _ = some _; simp only [word_wordBytes]) rfl
theorem eject (p : Port) (target : Byte) : Statement (.eject p target) := of_wire rfl rfl rfl
theorem restart (p : Port) : Statement (.restart p) := of_wire rfl rfl rfl
theorem stageBegin (p : Port) : Statement (.stageBegin p) := of_wire rfl rfl rfl
theorem stageSet (p : Port) (item index : Byte) (value : Word) :
    Statement (.stageSet p item index value) :=
  of_wire rfl (by show some _ = some _; simp only [word_wordBytes]) rfl
theorem stageRead (p : Port) (item index : Byte) : Statement (.stageRead p item index) :=
  of_wire rfl rfl rfl
theorem stageAbort (p : Port) : Statement (.stageAbort p) := of_wire rfl rfl rfl
theorem commit (p : Port) : Statement (.commit p) := of_wire rfl rfl rfl
theorem stageStatus (p : Port) : Statement (.stageStatus p) := of_wire rfl rfl rfl
theorem send (p : Port) (first : PinChange) (rest : List PinChange) :
    Statement (.send p first rest) := of_none rfl
theorem fetch (p : Port) (first : PinChange) (rest : List PinChange) :
    Statement (.fetch p first rest) := of_none rfl
theorem poll (p : Port) (first : PinChange) (rest : List PinChange) :
    Statement (.poll p first rest) := of_none rfl
theorem unrecognisedKindByte (p : Port) (first : PinChange) (rest : List PinChange) :
    Statement (.unrecognisedKindByte p first rest) := of_none rfl
theorem tick : Statement .tick := of_none rfl
theorem leaseExpiry (p : Port) (key : Word) : Statement (.leaseExpiry p key) := of_none rfl
theorem waitExpiry (p : Port) (key : Word) : Statement (.waitExpiry p key) := of_none rfl
theorem guardDeadline (ch : Channel) : Statement (.guardDeadline ch) := of_none rfl
theorem ginhChange (ch : Channel) (level : Bool) : Statement (.ginhChange ch level) := of_none rfl
theorem reservedHeadPass : Statement .reservedHeadPass := of_none rfl
theorem tokenFaultWithdrawal : Statement .tokenFaultWithdrawal := of_none rfl
theorem rowEraseDone : Statement .rowEraseDone := of_none rfl
theorem rowWriteDone : Statement .rowWriteDone := of_none rfl
theorem rowVerifyEnd (matched : Bool) : Statement (.rowVerifyEnd matched) := of_none rfl
theorem supplyLowSet : Statement .supplyLowSet := of_none rfl
theorem supplyLowClear : Statement .supplyLowClear := of_none rfl
theorem brownout : Statement .brownout := of_none rfl
theorem supplyBelowPowerOnLevel : Statement .supplyBelowPowerOnLevel := of_none rfl
theorem powerOn : Statement .powerOn := of_none rfl
theorem supplyRelease : Statement .supplyRelease := of_none rfl
theorem rstTakenLow : Statement .rstTakenLow := of_none rfl
theorem rstTakenHigh : Statement .rstTakenHigh := of_none rfl
theorem restartHoldEnd : Statement .restartHoldEnd := of_none rfl
theorem bootEnd : Statement .bootEnd := of_none rfl
theorem supplyBelowBrownoutInReset : Statement .supplyBelowBrownoutInReset := of_none rfl

end Sys2Proof.Laws.Wire
end

