-- ==== Sys2Proof/Laws/Rows.lean ====
section
/-! SUPPORT. The store rows as written and as read: the bytes of rowOf, its CRC, the floor of a reserve
row, and which rows an update of the store touches. -/

namespace Sys2Proof

/-- The first 30 bytes of a row from its fields (R194). -/
def rowBody (fields : List Byte) : List Byte := (List.range 30).map fun i => fields.getD i 0x00#8

theorem toList_ofFn_getD (l : List Byte) (h : l.length = 32) :
    (Vector.ofFn fun i : Fin 32 => l.getD i.val 0x00#8).toList = l := by
  apply List.ext_getElem
  · simp [h]
  · intro i h1 h2
    simp [List.getD_eq_getElem?_getD, List.getElem?_eq_getElem h2]

/-- A row from its fields is its body and the CRC of that (R192, R194). -/
theorem rowOf_toList (fields : List Byte) :
    (rowOf fields).toList = rowBody fields ++ halfBytes (crc16 (rowBody fields)) :=
  toList_ofFn_getD _ (by simp [halfBytes])

theorem length_rowBody (fields : List Byte) : (rowBody fields).length = 30 := by simp [rowBody]

/-- A byte of a row from its fields (R194). -/
theorem rowOf_getD (fields : List Byte) (i : Nat) (h : i < 30) (d : Byte) :
    (rowOf fields).toList.getD i d = fields.getD i 0x00#8 := by
  rw [rowOf_toList, List.getD_eq_getElem?_getD,
    List.getElem?_append_left (by rw [length_rowBody]; exact h)]
  simp [rowBody, h]

namespace Machine

/-- A row from its fields carries its CRC (R192). -/
@[simp] theorem rowCrcMatches_rowOf (fields : List Byte) : rowCrcMatches (rowOf fields) = true := by
  simp only [rowCrcMatches, rowHalf, rowOf_toList]
  rw [List.take_append_of_le_length (by rw [length_rowBody]), List.take_of_length_le
    (by rw [length_rowBody])]
  generalize crc16 (rowBody fields) = v
  simp [List.getD_eq_getElem?_getD, length_rowBody, halfBytes]

/-- The word at an offset of a row from its fields. -/
theorem rowWord_rowOf (fields : List Byte) (k : Nat) (h : k + 3 < 30) :
    rowWord (rowOf fields) k =
      word (fields.getD k 0#8) (fields.getD (k + 1) 0#8) (fields.getD (k + 2) 0#8)
        (fields.getD (k + 3) 0#8) := by
  simp only [rowWord, rowOf_getD _ _ (show k < 30 by omega), rowOf_getD _ _ (show k + 1 < 30 by omega),
    rowOf_getD _ _ (show k + 2 < 30 by omega), rowOf_getD _ _ h]

/-- The half at an offset of a row from its fields. -/
theorem rowHalf_rowOf (fields : List Byte) (k : Nat) (h : k + 1 < 30) :
    rowHalf (rowOf fields) k = half (fields.getD k 0#8) (fields.getD (k + 1) 0#8) := by
  simp only [rowHalf, rowOf_getD _ _ (show k < 30 by omega), rowOf_getD _ _ h]

/-- The floor of the row an advance writes (R66). -/
@[simp] theorem rowWord_reserveRow (floor : Word) : rowWord (reserveRow floor) 0 = floor := by
  rw [reserveRow, rowWord_rowOf _ _ (by decide)]
  exact word_wordBytes floor

/-- The inverted floor of the row an advance writes (R66). -/
@[simp] theorem rowWord_reserveRow_inverted (floor : Word) :
    rowWord (reserveRow floor) 4 = ~~~floor := by
  rw [reserveRow, rowWord_rowOf _ _ (by decide)]
  exact word_wordBytes (~~~floor)

/-- A programmed row is not row 0 (R156). -/
theorem ProgRow.index_ne_zero (r : ProgRow) : r.index ≠ 0 := by
  rcases r with ⟨side⟩ | ⟨side⟩ | ⟨side⟩ <;> cases side <;> decide

@[simp] theorem Store.factoryRow_setRow (st : Store) (r : ProgRow) (v : Row) :
    (st.setRow r v).factoryRow = st.factoryRow := by
  have h : r.index.val ≠ 0 := fun e => r.index_ne_zero (Fin.ext e)
  simp [Store.factoryRow, Store.setRow, h]

@[simp] theorem Store.row_setRow_self (st : Store) (r : ProgRow) (v : Row) :
    (st.setRow r v).row r = v := by
  simp [Store.row, Store.setRow]

/-- A new floor is no lower than the floor it replaces (R56). -/
theorem le_nextFloor (F : Word) : F ≤ nextFloor F := by
  unfold nextFloor
  split
  · rw [BitVec.le_def]
    exact Nat.le_of_lt_succ F.isLt
  · rename_i h
    have hm : maxWord.toNat = 4294967295 := rfl
    have hF := F.isLt
    rw [BitVec.lt_def, BitVec.toNat_sub, hm, BitVec.toNat_ofNat] at h
    rw [BitVec.le_def, BitVec.toNat_add, BitVec.toNat_ofNat]
    omega

end Machine

end Sys2Proof
end

