-- ==== Sys2Proof/WellFormed.lean ====
section
/-! DEFINITION. Which terms of Instr name a step of the part: a transaction row is one transaction or a
part of one. Every other operand has the width of its field, and a value out of range is answered by the
command (R193). -/

namespace Sys2Proof

/-- The pin changes of a row are those of one transaction, or of a part of it: CSn rises at their end
alone (R136). -/
def oneTransaction (first : PinChange) (rest : List PinChange) : Bool :=
  (first :: rest).dropLast.all fun c => c != .csn true

/-- The check on one term. -/
def Instr.wellFormed (i : Instr) : Bool :=
  match i with
  | .send _ first rest => oneTransaction first rest
  | .fetch _ first rest => oneTransaction first rest
  | .poll _ first rest => oneTransaction first rest
  | .unrecognisedKindByte _ first rest => oneTransaction first rest
  | .hello _ => true
  | .bye _ => true
  | .acquire _ _ _ _ _ => true
  | .release _ _ _ => true
  | .cancel _ _ => true
  | .renew _ _ _ _ => true
  | .verify _ _ _ => true
  | .peekNotice _ => true
  | .ackNotice _ _ => true
  | .lookup _ _ => true
  | .list _ _ => true
  | .time _ => true
  | .status _ => true
  | .ident _ => true
  | .mySlot _ _ => true
  | .revoke _ _ _ => true
  | .eject _ _ => true
  | .restart _ => true
  | .stageBegin _ => true
  | .stageSet _ _ _ _ => true
  | .stageRead _ _ _ => true
  | .stageAbort _ => true
  | .commit _ => true
  | .stageStatus _ => true
  | .tick => true
  | .leaseExpiry _ _ => true
  | .waitExpiry _ _ => true
  | .guardDeadline _ => true
  | .ginhChange _ _ => true
  | .reservedHeadPass => true
  | .tokenFaultWithdrawal => true
  | .rowEraseDone => true
  | .rowWriteDone => true
  | .rowVerifyEnd _ => true
  | .supplyLowSet => true
  | .supplyLowClear => true
  | .brownout => true
  | .supplyBelowPowerOnLevel => true
  | .powerOn => true
  | .supplyRelease => true
  | .rstTakenLow => true
  | .rstTakenHigh => true
  | .restartHoldEnd => true
  | .bootEnd => true
  | .supplyBelowBrownoutInReset => true

end Sys2Proof
end

