-- ==== Sys2Proof/Tests/Slice0.lean ====
section
/-! SUPPORT. Tests: the well-formedness check, the check codes and frames of the manual's own examples,
one step of each family on a small state, and for each statement with hypotheses a witness of them
(test_witness_<statement>), at the bounds of their ranges. -/

namespace Sys2Proof.Machine.Test

set_option Elab.async false

/-! ### Well-formedness, check codes, frames -/

theorem test_illFormed_csnRisesInside :
    (Instr.send 0 (.csn true) [.csn false]).wellFormed = false ∧
    (Instr.fetch 0 (.csn false) [.csn true, .sck true]).wellFormed = false ∧
    (Instr.poll 0 (.csn true) [.csn true]).wellFormed = false ∧
    (Instr.unrecognisedKindByte 0 (.sck true) [.csn true, .csn false]).wellFormed = false := by decide

theorem test_wellFormed_oneTransaction :
    (Instr.send 0 (.csn false) [.sck true, .csn true]).wellFormed = true ∧
    (Instr.unrecognisedKindByte 0 (.csn true) []).wellFormed = true := by decide

/-- The example of R191: HELLO with tag 1, byte by byte. -/
theorem test_helloFrame :
    crc8 [0x03#8] = 0xFA#8 ∧ crc8 [0x03#8, 0x01#8] = 0xEF#8 ∧
    encodeFrame 1#4 (.hello 2) = some [0x03#8, 0x01#8, 0x10#8, 0xF3#8] ∧
    readFrame 2 [0x03#8, 0x01#8, 0x10#8, 0xF3#8] = .command 1#4 (.hello 2) := by decide +kernel

theorem test_tableGivesNoWords : decodeTableWord 8 0x10 = none := rfl

/-! ### Small states -/

def keyK : Word := 0x10000001#32

def keyL : Word := 0x20000002#32

/-- The factory default configuration with key K bound to channel 0 with a guard of 20 ticks. -/
def boundImage : Image := Image.factoryDefault.setChan 0 ⟨keyK, 20#16⟩

/-- A part in READY with the image above in force, tokens 100 to 355 to draw, and four ATTACHED ports. -/
def ready : State :=
  { State.reset with
    device := .ready
    now := 50#32
    tok := ⟨100#32, 356#32, .normal, some .a, false, 100#32⟩
    chans := (Vector.replicate 4 ⟨0#32, 0#16, .unbound, true⟩).set 0 ⟨keyK, 20#16, .idle, false⟩
    ginhPin := false
    cfg := { ConfigUnit.reset with effective := boundImage }
    supply := ⟨.released, false, some .powerOn⟩
    ports := Vector.replicate 4 { PortUnit.reset with attached := true, session := 1#16, sessionLost := false } }

/-- A state with a command of a port accepted. -/
def ask (s : State) (p : Port) (c : Instr) : State :=
  s.setPort p { s.port p with slot := .pending 1#4 c }

/-- A state with a port DETACHED. -/
def detached (s : State) (p : Port) : State :=
  s.setPort p { s.port p with attached := false, session := 0#16 }

/-- A state with other settings of a port. -/
def withSettings (s : State) (p : Port) (f : PortSettings → PortSettings) : State :=
  { s with cfg := { s.cfg with effective := s.cfg.effective.setPort p (f (s.settings p)) } }

/-- Port 0 holds K exclusively with token 90 up to now, in slot 0, and its gate is open. -/
def held : State :=
  (((ready.setRecord 0 (some ((Record.fresh keyK).setHolder 0
    (some ⟨.exclusive, 90#32, 50#32, 0⟩)))).setSlot 0 0 (.holding keyK .exclusive 90#32 50#32)).setChan 0
      { ready.chan 0 with state := .high })

/-- The entry of port 1 behind that holding, in a state, with a deadline of now. -/
def entry (st : WaiterState) : Waiter := ⟨1, .exclusive, 30#16, 50#32, st, 0⟩

/-- Port 1 waits for K behind that holding. -/
def queued : State :=
  (held.setRecord 0 (some { (Record.fresh keyK).setHolder 0 (some ⟨.exclusive, 90#32, 50#32, 0⟩) with
    waiters := [entry .queued] })).setSlot 1 0 (.waiting keyK .exclusive 50#32 30#16)

/-- Port 1 waits for K, RESERVED, with no holding before it; the channel is in the state given. -/
def reserved (c : ChannelState) : State :=
  ((ready.setRecord 0 (some { Record.fresh keyK with waiters := [entry .reserved] })).setSlot 1 0
    (.reserved keyK .exclusive 50#32 30#16)).setChan 0 { ready.chan 0 with state := c }

/-- Ports 1 and 2 wait for K behind that holding, in this order. -/
def queuedTwo : State :=
  (queued.setRecord 0 (some { (Record.fresh keyK).setHolder 0 (some ⟨.exclusive, 90#32, 50#32, 0⟩) with
    waiters := [entry .queued, { entry .queued with port := 2 }] })).setSlot 2 0
      (.waiting keyK .exclusive 50#32 30#16)

/-- A state with a guard interval of 0 on channel 0. -/
def unguarded (s : State) : State := s.setChan 0 { s.chan 0 with guard := 0#16 }

/-- The image above, frozen, and the part as shipped but for that image in copy A. -/
def frozenImage : Image := { boundImage with frozen := true }

def frozenPart : State :=
  { State.reset with
    store := { State.reset.store with
      rows := (State.reset.store.rows.set 3 (copyRowOne 1#16 frozenImage)).set 4 (copyRowTwo 1#16 frozenImage) }
    cfg := selectConfig (.valid 1#16 frozenImage) .blank }

/-- A state with other tokens. -/
def tokens (s : State) (t : TokenUnit) : State := { s with tok := t }

/-- A LAPSED notice of port 0 with sequence 0 that names slot 0, which is PINNED. -/
def noticed : State :=
  (ready.setPort 0 { ready.port 0 with
    notices := [⟨0#8, .lapsed, keyK, 0, 90#32, .none, 40#32⟩], seq := 1#8 }).setSlot 0 0
      (.pinned keyK 90#32)

/-- The open image of port 0. -/
def staged (img : Image) : State := { ready with cfg := ready.cfg.openImage 0 img }

/-- The engine at the verify phase of attempt 1 or 2 of a request. -/
def verifying (s : State) (req : RowRequest) (attempt : Attempt) : State :=
  { s with store := { s.store with engine := .busy req attempt .verify } }

def advanceReq : RowRequest := ⟨.reserve .b, reserveRow 612#32, .tokenUnit⟩

/-- A commit of port 0 in progress into copy A. -/
def committing : State :=
  { ready with cfg := { ready.cfg with
      staging := .programming, owner := some 0, image := some boundImage, target := some ⟨.a, 1⟩ } }

def commitReq : RowRequest := firstRowRequest ⟨.a, 1⟩ boundImage

/-- That commit on a part that has never advanced, its first row in the engine. -/
def programmingFirst : State :=
  { State.reset with
    device := .ready
    cfg := committing.cfg
    store := { State.reset.store with engine := .busy commitReq .first .erase } }

/-- The changes that clock bits in on SDI. -/
def clocked (sdi : List Bool) : List PinChange :=
  sdi.flatMap fun b => [.sck false, .sdi b, .sck true]

/-- A whole transaction of the bytes given. -/
def whole (bytes : List Byte) : List PinChange :=
  [.csn false] ++ clocked (bitsOfBytes bytes) ++ [.csn true]

/-- Port 0 inside a transaction of a kind, SCK at a level, with the bits of the byte in progress and the
bits that wait for SDO. -/
def inside (kind : Option TransferKind) (sck : Bool) (bitsIn bitsOut : List Bool) : State :=
  ready.setPort 0 { ready.port 0 with
    pins := ⟨false, sck, true⟩, transfer := some ⟨.mode0, kind, bitsIn, bitsOut⟩, sdo := some true }

/-- Port 0 at the last bit of a byte of a transaction. -/
def lastBit (kind : Option TransferKind) (b : Byte) : State :=
  inside kind false ((bitsOfByte b).take 7) [false]

/-- Port 0 at the end of a SEND of a frame. -/
def sent (s : State) (rx : List Byte) : State :=
  s.setPort 0 { s.port 0 with
    pins := ⟨false, true, true⟩, transfer := some ⟨.mode0, some .send, [], []⟩, sdo := some true, rx := rx }

/-- The state after a row of the table. -/
def after (c : Instr) (s : State) : State :=
  match exec c s with
  | .next t => t
  | .fault _ => s
  | .refused _ => s

/-- The status and fields of the reply a port has. -/
def replyOf (s : State) (p : Port) : Option (Status × Fields) :=
  match (s.port p).slot with
  | .filled r => some (r.status, r.fields)
  | .empty => none
  | .pending _ _ => none

/-- The reply to a command of a port that the engine takes. -/
def replyTo (s : State) (p : Port) (c : Instr) : Option (Status × Fields) :=
  replyOf (after c (ask s p c)) p

/-- The engine takes the command of an ATTACHED port. -/
abbrev Taken (s : State) (p : Port) (c : Instr) : Prop :=
  (ask s p c).takenTag p c = some 1#4 ∧ ((ask s p c).port p).attached = true

/-- The engine takes the command of a DETACHED port. -/
abbrev TakenDetached (s : State) (p : Port) (c : Instr) : Prop :=
  (ask (detached s p) p c).takenTag p c = some 1#4 ∧ ((ask (detached s p) p c).port p).attached = false

/-! ### The machine and sessions -/

theorem test_witness_CommandTakenWhen :
    wireOf (.hello 0) = some (0, 0x10#8, []) ∧ (ask ready 0 (.hello 0)).takenTag 0 (.hello 0) = some 1#4 ∧
    ready.takenTag 0 (.hello 0) = none ∧ exec (.hello 0) ready = .next ready ∧
    ({ ask ready 0 (.hello 0) with hold := .holding } : State).takenTag 0 (.hello 0) = none ∧
    ({ ask ready 0 (.hello 0) with device := .boot } : State).takenTag 0 (.hello 0) = none ∧
    (ask { ready with served := 2 } 2 (.bye 2)).takenTag 2 (.bye 2) = some 1#4 ∧
    (ask (ask { ready with served := 0 } 0 (.hello 0)) 1 (.bye 1)).takenTag 0 (.hello 0) = none ∧
    (ask (ask { ready with served := 0 } 0 (.hello 0)) 1 (.bye 1)).takenTag 1 (.bye 1) = some 1#4 := by
  refine ⟨?_, ?_, ?_, rfl, ?_, ?_, ?_, ?_, ?_⟩ <;> decide +kernel

theorem test_step_takesFront :
    step { ready with pending := [.tick, .bootEnd] } =
      .next { ready with now := 51#32, pending := [.bootEnd] } ∧ step ready = .next ready := by exact ⟨rfl, rfl⟩

theorem test_witness_DetachedRefusal :
    TakenDetached ready 0 (.time 0) ∧ TakenDetached ready 0 (.bye 0) ∧
    replyTo (detached ready 0) 0 (.bye 0) = some (.detached, .none) ∧
    replyTo (detached ready 0) 0 (.time 0) = some (.ok, .now 50#32) := by decide +kernel

theorem test_witness_HelloAndByeOutcome_detached :
    TakenDetached ready 0 (.hello 0) ∧
    TakenDetached { ready with sessionCounter := 65535#16 } 0 (.hello 0) ∧
    replyTo (detached ready 0) 0 (.hello 0) = some (.ok, .session 1#16 100#32) ∧
    replyTo (detached { ready with sessionCounter := 65535#16 } 0) 0 (.hello 0) =
      some (.ok, .session 1#16 100#32) := by decide +kernel

theorem test_witness_HelloAndByeOutcome_attached :
    Taken held 0 (.hello 0) ∧
    replyTo held 0 (.hello 0) = some (.ok, .session 1#16 100#32) ∧
    (after (.hello 0) (ask held 0 (.hello 0))).record 0 = none ∧ Taken held 0 (.bye 0) ∧
    ((after (.bye 0) (ask held 0 (.bye 0))).port 0).attached = false ∧
    (after (.bye 0) (ask held 0 (.bye 0))).slot 0 0 = .free := by decide +kernel

theorem test_witness_EjectOutcome :
    let noRight := withSettings ready 0 fun st => { st with rights := ⟨true, true, false, true⟩ }
    Taken noRight 0 (.eject 0 1#8) ∧ Taken ready 0 (.eject 0 3#8) ∧
    Taken (detached ready 3) 0 (.eject 0 3#8) ∧
    replyTo noRight 0 (.eject 0 1#8) = some (.noRight, .none) ∧
    replyTo ready 0 (.eject 0 0#8) = some (.badParam, .none) ∧
    replyTo ready 0 (.eject 0 4#8) = some (.badParam, .none) ∧
    replyTo (detached ready 3) 0 (.eject 0 3#8) = some (.notAttached, .none) ∧
    replyTo ready 0 (.eject 0 3#8) = some (.ok, .none) := by decide +kernel

theorem test_witness_TearDownRemovesClaims :
    (∃ r, queued.record 0 = some r ∧ r.holder 0 = some ⟨.exclusive, 90#32, 50#32, 0⟩ ∧
      r.waiter 1 = some (entry .queued) ∧ r.onePerPort) ∧
    queued.boundChannel keyK = some 0 ∧ (queued.chan 0).state = .high ∧
    ((queued.tearDown 0).chan 0).state = .guard 70#32 ∧ (held.tearDown 0).record 0 = none ∧
    ((queued.tearDown 1).record 0) = held.record 0 ∧
    (((unguarded held).tearDown 0).chan 0).state = .idle ∧
    (((unguarded queued).tearDown 0).chan 0).state = .high ∧
    ((unguarded queued).tearDown 0).slot 1 0 = .holding keyK .exclusive 100#32 80#32 ∧
    (queued.tearDown 0).slot 1 0 = .reserved keyK .exclusive 50#32 30#16 := by
  refine ⟨⟨_, rfl, rfl, rfl, ?_⟩, rfl, rfl, ?_, ?_, ?_, ?_, ?_, ?_, ?_⟩
  · unfold Record.onePerPort; decide +kernel
  all_goals decide +kernel

/-- The notices and the slots of another port stand, and a waiter that the pass reserves has no notice. -/
theorem test_witness_TearDownRemovesClaims_others :
    let s := (queued.postNotice 2 .lapsed keyL 3 7#32 .none).setSlot 2 3 (.pinned keyL 7#32)
    (s.tearDown 0).port 2 = s.port 2 ∧ (s.port 2).notices.length = 1 ∧
    (s.tearDown 0).slot 2 3 = .pinned keyL 7#32 ∧ (s.tearDown 0).port 1 = s.port 1 := by decide +kernel

/-! ### ACQUIRE -/

theorem test_witness_AcquireRefused_parameters :
    Taken ready 2 (.acquire 2 keyK 1#8 10#16 0#16) ∧
    replyTo (withSettings ready 2 fun st => { st with rights := ⟨false, true, true, true⟩ }) 2
      (.acquire 2 keyK 1#8 10#16 0#16) = some (.noRight, .none) ∧
    replyTo ready 2 (.acquire 2 0#32 1#8 10#16 0#16) = some (.badParam, .none) ∧
    replyTo ready 2 (.acquire 2 keyK 0#8 10#16 0#16) = some (.badParam, .none) ∧
    replyTo ready 2 (.acquire 2 keyK 3#8 10#16 0#16) = some (.badParam, .none) ∧
    replyTo ready 2 (.acquire 2 keyK 1#8 9#16 0#16) = some (.badParam, .none) ∧
    replyTo ready 2 (.acquire 2 keyK 1#8 60001#16 0#16) = some (.badParam, .none) ∧
    replyTo ready 2 (.acquire 2 keyK 1#8 60000#16 60001#16) = some (.badParam, .none) ∧
    replyTo (withSettings ready 2 fun st => { st with classMask := 0xFFFD#16 }) 2
      (.acquire 2 keyK 1#8 10#16 0#16) = some (.classDenied, .none) := by decide +kernel

theorem test_witness_AcquireRefused_resources :
    let noSlots := { ready with slots := Vector.replicate 4 (Vector.replicate 8 (.pinned keyL 5#32)) }
    let fullTable := { ready with table := Vector.replicate 24 (some ((Record.fresh keyL).setHolder 3
      (some ⟨.shared, 90#32, 99#32, 0⟩))) }
    let refused := fun (s : State) (p : Port) st => Taken s p (.acquire p keyK 1#8 10#16 0#16) ∧
      replyTo s p (.acquire p keyK 1#8 10#16 0#16) = some (st, .none)
    refused queued 0 .alreadyHeld ∧ refused queued 1 .alreadyWaiting ∧
    refused noSlots 2 .slotsExhausted ∧ refused fullTable 2 .tableFull ∧
    refused (tokens ready ⟨100#32, 356#32, .storeFault, some .a, false, 1#32⟩) 2 .storeFault ∧
    refused (tokens ready ⟨maxWord, maxWord, .tokensSpent, some .a, false, 1#32⟩) 2 .tokensSpent ∧
    fullTable.lookRecord keyK = none := by decide +kernel

theorem test_witness_AcquireGrantedAtOnce :
    Taken ready 2 (.acquire 2 keyK 1#8 10#16 0#16) ∧
    acquireParams (ready.settings 2) keyK 1#8 10#16 0#16 = .ok .exclusive ∧
    ready.acquirePlace 2 keyK = .ok ⟨0, Record.fresh keyK, 0⟩ ∧
    ready.admissible (Record.fresh keyK) .exclusive = true ∧
    replyTo ready 2 (.acquire 2 keyK 1#8 10#16 0#16) = some (.ok, .grant 100#32 60#32 0) ∧
    ((after (.acquire 2 keyK 1#8 10#16 0#16) (ask ready 2 (.acquire 2 keyK 1#8 10#16 0#16))).chan 0).lineHigh
      = true := by refine ⟨?_, rfl, rfl, ?_, ?_, ?_⟩ <;> decide +kernel

/-- What a draw brings, at the bounds of R56 and R62. -/
theorem test_drawAtLowWaterAndAtTheEnd :
    let c := Instr.acquire 2 keyK 1#8 10#16 0#16
    let t := fun tok => after c (ask (tokens ready tok) 2 c)
    (t ⟨322#32, 356#32, .normal, some .a, false, 1#32⟩).tok.state = .normal ∧
    (t ⟨323#32, 356#32, .normal, some .a, false, 1#32⟩).tok.state = .advancing ∧
    (t ⟨323#32, 356#32, .normal, some .a, false, 1#32⟩).store.engine =
      .busy advanceReq .first .erase ∧
    (t ⟨maxWord - 1#32, maxWord, .normal, some .a, false, 1#32⟩).tok.state = .tokensSpent ∧
    (t ⟨maxWord - 1#32, maxWord, .normal, some .a, false, 1#32⟩).faultSweep = some 0 := by decide +kernel

/-- Each condition of R11 at both of its outcomes. -/
theorem test_witness_SearchAdmissionAndPlace_admission :
    let free := Record.fresh keyK
    let shared := free.setHolder 3 (some ⟨.shared, 80#32, 60#32, 0⟩)
    let exclusive := free.setHolder 0 (some ⟨.exclusive, 90#32, 50#32, 0⟩)
    let guarded := ready.setChan 0 { ready.chan 0 with state := .guard 60#32 }
    let unit := fun G st => tokens ready ⟨G, 356#32, st, some .a, false, 1#32⟩
    ready.admissible free .exclusive = true ∧ ready.admissible shared .exclusive = false ∧
    ready.admissible shared .shared = true ∧ ready.admissible exclusive .shared = false ∧
    guarded.admissible free .exclusive = false ∧ guarded.admissible free .shared = true ∧
    guarded.admissible (Record.fresh keyL) .exclusive = true ∧
    (unit 355#32 .advancing).admissible free .exclusive = true ∧
    (unit 356#32 .advancing).admissible free .exclusive = false ∧
    (unit 100#32 .storeFault).admissible free .exclusive = false ∧
    (unit 100#32 .tokensSpent).admissible free .exclusive = false := by decide +kernel

theorem test_witness_SearchAdmissionAndPlace_search :
    held.boundChannel keyK = some 0 ∧ held.boundChannel 0#32 = none ∧ held.boundChannel keyL = none ∧
    (queued.lookRecord keyK).isSome = true ∧ queued.lookRecord keyL = none ∧
    (queued.holdingOf 0 keyK).isSome = true ∧ queued.holdingOf 1 keyK = none ∧
    (queued.waitingOf 1 keyK).isSome = true ∧ queued.waitingOf 0 keyK = none := by decide +kernel

theorem test_witness_SearchAdmissionAndPlace :
    acquireParams (ready.settings 2) keyK 2#8 60000#16 60000#16 = .ok .shared ∧
    held.acquirePlace 2 keyK =
      .ok ⟨0, (Record.fresh keyK).setHolder 0 (some ⟨.exclusive, 90#32, 50#32, 0⟩), 0⟩ ∧
    held.acquirePlace 0 keyL = .ok ⟨1, Record.fresh keyL, 1⟩ := by exact ⟨rfl, rfl, rfl⟩

theorem test_witness_AcquireNotQueued :
    let spent := tokens ready ⟨356#32, 356#32, .advancing, some .a, false, 1#32⟩
    let c := Instr.acquire 2 keyK 1#8 10#16 0#16
    Taken held 2 c ∧ Taken spent 2 c ∧ spent.gateOpen keyK .exclusive = true ∧
    spent.admissible (Record.fresh keyK) .exclusive = false ∧
    replyTo held 2 c = some (.busy, .none) ∧ replyTo spent 2 c = some (.noToken, .none) ∧
    (after c (ask spent 2 c)).tok.demand = true ∧ (after c (ask held 2 c)).tok.demand = false := by decide +kernel

theorem test_witness_AcquireQueued :
    let c := Instr.acquire 2 keyK 1#8 10#16 1#16
    let guarded := ready.setChan 0 { ready.chan 0 with state := .guard 60#32 }
    Taken queued 2 c ∧ Taken guarded 2 c ∧
    replyTo queued 2 c = some (.queued, .slot 0) ∧ replyTo guarded 2 c = some (.queued, .slot 0) ∧
    (after c (ask queued 2 c)).slot 2 0 = .waiting keyK .exclusive 51#32 10#16 ∧
    (after c (ask guarded 2 c)).slot 2 0 = .reserved keyK .exclusive 51#32 10#16 := by decide +kernel

/-! ### Commands on a claim -/

theorem test_witness_ReleaseOutcome :
    let c := Instr.release 0 keyK 90#32
    Taken queued 0 c ∧ (queued.holdingOf 0 keyK).isSome = true ∧ queued.holdingOf 0 keyL = none ∧
    replyTo queued 0 (.release 0 keyL 90#32) = some (.notHeld, .none) ∧
    replyTo queued 0 (.release 0 keyK 91#32) = some (.badToken, .none) ∧
    replyTo queued 0 (.release 0 keyK 0#32) = some (.badToken, .none) ∧
    replyTo queued 0 c = some (.ok, .none) ∧ (after c (ask queued 0 c)).slot 0 0 = .free ∧
    ((after c (ask queued 0 c)).chan 0).state = .guard 70#32 ∧
    (after c (ask queued 0 c)).slot 1 0 = .reserved keyK .exclusive 50#32 30#16 ∧
    ((after c (ask (unguarded held) 0 c)).chan 0).state = .idle ∧
    ((after c (ask (unguarded queued) 0 c)).chan 0).state = .high ∧
    (after c (ask held 0 c)).record 0 = none := by decide +kernel

theorem test_witness_CancelOutcome :
    let c := Instr.cancel 1 keyK
    Taken queued 1 c ∧ (queued.waitingOf 1 keyK).isSome = true ∧ queued.waitingOf 1 keyL = none ∧
    replyTo queued 1 (.cancel 1 keyL) = some (.notWaiting, .none) ∧
    replyTo queued 1 c = some (.ok, .none) ∧ (after c (ask queued 1 c)).slot 1 0 = .free ∧
    (after c (ask queued 1 c)).record 0 = held.record 0 ∧
    (after c (ask (reserved .high) 1 c)).record 0 = none ∧
    (∃ r w, queuedTwo.waitingOf 2 keyK = some (0, r, w) ∧ ¬∃ v, r.waiters.head? = some v ∧ v.port = 2) ∧
    (after (.cancel 2 keyK) (ask queuedTwo 2 (.cancel 2 keyK))).record 0 = queued.record 0 := by
  refine ⟨?_, ?_, ?_, ?_, ?_, ?_, ?_, ?_, ⟨_, _, rfl, ?_⟩, ?_⟩
  case refine_9 => rintro ⟨v, h, hp⟩; cases h; exact absurd hp (by decide)
  all_goals decide +kernel

theorem test_witness_RevokeOutcome :
    let c := Instr.revoke 3 keyK 0xFF#8
    let noRight := withSettings queued 3 fun st => { st with rights := ⟨true, true, false, true⟩ }
    Taken queued 3 c ∧ (∃ r, queued.lookRecord keyK = some (0, r) ∧ r.waiters = [entry .queued] ∧
      (r.waiters.map fun w => w.port).Nodup ∧ r.holder 1 = none) ∧
    replyTo noRight 3 c = some (.noRight, .none) ∧
    replyTo queued 3 (.revoke 3 keyK 4#8) = some (.badParam, .none) ∧
    replyTo queued 3 (.revoke 3 0#32 3#8) = some (.badParam, .none) ∧
    replyTo queued 3 (.revoke 3 keyL 3#8) = some (.notHeld, .none) ∧
    replyTo queued 3 (.revoke 3 keyK 2#8) = some (.notHeld, .none) ∧
    replyTo queued 3 c = some (.ok, .removed 2) ∧
    (after c (ask queued 3 c)).slot 0 0 = .pinned keyK 90#32 ∧
    (after c (ask queued 3 c)).slot 1 0 = .pinned keyK 0#32 := by
  refine ⟨?_, ⟨_, rfl, rfl, ?_, rfl⟩, ?_, ?_, ?_, ?_, ?_, ?_, ?_, ?_⟩ <;> decide +kernel

/-- A waiter behind the head, the head, and the holder alone. -/
theorem test_witness_RevokeOutcome_others :
    let behind := Instr.revoke 3 keyK 2#8
    let head := Instr.revoke 3 keyK 1#8
    let holder := Instr.revoke 3 keyK 0#8
    (∃ r, queuedTwo.lookRecord keyK = some (0, r) ∧ r.onePerPort ∧ r.holder 2 = none ∧
      (∃ v, r.waiters.head? = some v ∧ v.port = 1)) ∧ Taken queuedTwo 3 behind ∧
    replyTo queuedTwo 3 behind = some (.ok, .removed 1) ∧
    (after behind (ask queuedTwo 3 behind)).record 0 = queued.record 0 ∧
    (after head (ask queued 3 head)).record 0 = held.record 0 ∧
    (after holder (ask queued 3 holder)).slot 1 0 = .reserved keyK .exclusive 50#32 30#16 ∧
    ((after holder (ask queued 3 holder)).chan 0).state = .guard 70#32 ∧
    ((after holder (ask (unguarded queued) 3 holder)).chan 0).state = .high := by
  refine ⟨⟨_, rfl, ?_, rfl, ⟨_, rfl, rfl⟩⟩, ?_, ?_, ?_, ?_, ?_, ?_, ?_⟩
  · unfold Record.onePerPort; decide +kernel
  all_goals decide +kernel

theorem test_witness_RenewAndVerifyOutcome_renew :
    let c := Instr.renew 0 keyK 90#32 10#16
    Taken held 0 c ∧ TakenDetached held 0 c ∧ (held.holdingOf 0 keyK).isSome = true ∧
    replyTo held 0 (.renew 0 keyK 90#32 9#16) = some (.badParam, .none) ∧
    replyTo held 0 (.renew 0 keyK 90#32 60001#16) = some (.badParam, .none) ∧
    replyTo held 0 (.renew 0 keyL 90#32 10#16) = some (.notHeld, .none) ∧
    replyTo held 0 (.renew 0 keyK 0#32 10#16) = some (.badToken, .none) ∧
    replyTo held 0 c = some (.ok, .deadline 60#32) ∧
    (after c (ask held 0 c)).slot 0 0 = .holding keyK .exclusive 90#32 60#32 := by decide +kernel

theorem test_witness_RenewAndVerifyOutcome_verify :
    Taken held 2 (.verify 2 keyK 90#32) ∧ TakenDetached held 2 (.verify 2 keyK 90#32) ∧
    replyTo held 2 (.verify 2 keyK 90#32) = some (.valid, .holder 0 .exclusive) ∧
    replyTo held 2 (.verify 2 keyK 99#32) = some (.stale, .none) ∧
    replyTo held 2 (.verify 2 keyK 100#32) = some (.future, .none) ∧
    replyTo held 2 (.verify 2 keyK 0#32) = some (.badParam, .none) ∧
    replyTo held 2 (.verify 2 0#32 1#32) = some (.badParam, .none) ∧
    replyTo held 2 (.verify 2 keyL 1#32) = some (.stale, .none) := by decide +kernel

/-! ### Grants and expiries -/

theorem test_witness_GrantHeadEffect :
    let s := reserved .idle
    (∃ r, s.record 0 = some r ∧ r.waiters = [entry .reserved] ∧ s.admissible r .exclusive = true) ∧
    (s.grantPass 0).slot 1 0 = .holding keyK .exclusive 100#32 80#32 ∧
    ((s.grantPass 0).port 1).notices = [⟨0#8, .granted, keyK, 0, 100#32, .none, 50#32⟩] ∧
    ((s.grantPass 0).chan 0).lineHigh = true := by
  refine ⟨⟨_, rfl, rfl, ?_⟩, ?_, ?_, ?_⟩ <;> decide +kernel

theorem test_witness_GrantPassStops :
    let s := (reserved (.guard 60#32)).grantPass 0
    (∃ r w rest, s.record 0 = some r ∧ r.waiters = w :: rest ∧ r.compatible w.mode = true ∧
      s.admissible r w.mode = false ∧ w.state = .reserved) ∧
    ((queued.grantPass 0).record 0) = queued.record 0 ∧ ready.record 0 = none ∧
    ((ready.setRecord 0 (some (Record.fresh keyK))).grantPass 0).record 0 = none ∧
    (held.grantPass 0).record 0 = held.record 0 ∧
    ((reserved .idle).grantPass 0).slot 1 0 = .holding keyK .exclusive 100#32 80#32 := by
  refine ⟨⟨_, _, _, rfl, rfl, rfl, ?_, rfl⟩, ?_, ?_, ?_, ?_, ?_⟩ <;> decide +kernel

theorem test_witness_GrantPassStops_queuedHead :
    let s := (reserved (.guard 60#32)).setRecord 0
      (some { Record.fresh keyK with waiters := [entry .queued] })
    (s.grantPass 0).slot 1 0 = .reserved keyK .exclusive 50#32 30#16 := by decide +kernel

theorem test_witness_LeaseExpiryLapses :
    (∃ r h, queued.holdingOf 0 keyK = some (0, r, h) ∧ h.deadline = queued.now ∧ r.waiter 0 = none ∧
      h.mode = .exclusive) ∧ queued.holdingOf 1 keyK = none ∧
    exec (.leaseExpiry 1 keyK) queued = .next queued ∧
    exec (.leaseExpiry 0 keyK) { queued with now := 49#32 } = .next { queued with now := 49#32 } ∧
    (after (.leaseExpiry 0 keyK) queued).slot 0 0 = .pinned keyK 90#32 ∧
    ((after (.leaseExpiry 0 keyK) queued).chan 0).state = .guard 70#32 ∧
    ((after (.leaseExpiry 0 keyK) (unguarded queued)).chan 0).state = .high ∧
    ((after (.leaseExpiry 0 keyK) (unguarded held)).chan 0).state = .idle := by
  refine ⟨⟨_, _, rfl, rfl, rfl, rfl⟩, rfl, rfl, rfl, ?_, ?_, ?_, ?_⟩ <;> decide +kernel

theorem test_witness_WaitExpiryWithdraws :
    (∃ r w, queued.waitingOf 1 keyK = some (0, r, w) ∧ w.state = .queued ∧ w.deadline = queued.now) ∧
    queued.waitingOf 0 keyK = none ∧
    exec (.waitExpiry 1 keyK) (reserved (.guard 60#32)) = .next (reserved (.guard 60#32)) ∧
    exec (.waitExpiry 1 keyK) { queued with now := 49#32 } = .next { queued with now := 49#32 } ∧
    (after (.waitExpiry 1 keyK) queued).slot 1 0 = .pinned keyK 0#32 ∧
    ((after (.waitExpiry 1 keyK) queued).port 1).notices =
      [⟨0#8, .withdrawn, keyK, 0, 0#32, .waitExpired, 50#32⟩] ∧
    (after (.waitExpiry 1 keyK) queued).record 0 = held.record 0 ∧
    (after (.waitExpiry 2 keyK) queuedTwo).record 0 = queued.record 0 := by
  refine ⟨⟨_, _, rfl, rfl, rfl⟩, rfl, rfl, rfl, ?_, ?_, ?_, ?_⟩ <;> decide +kernel

theorem test_witness_GateEvents_guardDeadline :
    let s := reserved (.guard 50#32)
    (s.chan 0).state = .guard s.now ∧ s.findRecord (s.chan 0).key = some 0 ∧
    (ready.setChan 0 { ready.chan 0 with state := .guard 50#32 }).findRecord keyK = none ∧
    exec (.guardDeadline 0) (reserved (.guard 51#32)) = .next (reserved (.guard 51#32)) ∧
    (after (.guardDeadline 0) s).slot 1 0 = .holding keyK .exclusive 100#32 80#32 := by
  refine ⟨rfl, rfl, rfl, rfl, ?_⟩; decide +kernel

theorem test_witness_GateEvents_ginhChange :
    (held.chan 0).state ≠ .unbound ∧ ((after (.ginhChange 0 true) held).chan 0).state = .heldLow ∧
    ((after (.ginhChange 0 false) (after (.ginhChange 0 true) held)).chan 0).state = .high ∧
    (held.chan 1).state = .unbound ∧ (after (.ginhChange 1 true) held).chan 1 = held.chan 1 ∧
    exec (.ginhChange 0 true) { held with device := .inReset } =
      .next { held with device := .inReset, ginhPin := true } := by
  refine ⟨?_, ?_, ?_, ?_, ?_, rfl⟩ <;> decide +kernel

theorem test_witness_ReservedHeadPassRuns :
    let s := { reserved .idle with availSweep := some 0 }
    s.headReserved 0 = true ∧ (∀ j : RecIx, 0 < j → (s.grantPass 0).headReserved j = false) ∧
    (∀ i : RecIx, 1 ≤ i.val → s.headReserved i = false) ∧
    (after .reservedHeadPass s).slot 1 0 = .holding keyK .exclusive 100#32 80#32 ∧
    (after .reservedHeadPass s).availSweep = none ∧
    (after .reservedHeadPass { s with availSweep := some 1 }).availSweep = none ∧
    exec .reservedHeadPass queued = .next queued := by
  refine ⟨?_, ?_, ?_, ?_, ?_, ?_, rfl⟩ <;> decide +kernel

theorem test_witness_ReservedHeadPassRuns_goesOn :
    let s := { (reserved .idle).setRecord 3 (some { Record.fresh keyL with
        waiters := [⟨2, .shared, 10#16, 60#32, .reserved, 0⟩] }) with availSweep := some 0 }
    (s.grantPass 0).headReserved 3 = true ∧ (after .reservedHeadPass s).availSweep = some 1 ∧
    (after .reservedHeadPass (after .reservedHeadPass s)).availSweep = none := by decide +kernel

theorem test_witness_TokenFaultWithdrawalRuns :
    let s := { tokens queued ⟨90#32, 356#32, .storeFault, some .a, false, 1#32⟩ with faultSweep := some 0 }
    (∃ r, s.record 0 = some r ∧ r.waiters ≠ [] ∧ (r.waiters.map fun w => w.port).Nodup ∧
      r.holder 1 = none ∧ r.waiter 0 = none) ∧ (∀ i : RecIx, 1 ≤ i.val → s.hasWaiter i = false) ∧
    (after .tokenFaultWithdrawal s).slot 1 0 = .pinned keyK 0#32 ∧
    ((after .tokenFaultWithdrawal s).port 1).notices =
      [⟨0#8, .withdrawn, keyK, 0, 0#32, .storeFault, 50#32⟩] ∧
    (after .tokenFaultWithdrawal s).faultSweep = none ∧
    (after .tokenFaultWithdrawal { s with faultSweep := some 1 }).faultSweep = none := by
  refine ⟨⟨_, rfl, ?_, ?_, rfl, rfl⟩, ?_, ?_, ?_, ?_, ?_⟩ <;> decide +kernel

theorem test_witness_TickAdvances :
    ready.dueEvents = [] ∧ held.dueEvents = [.lease 0 keyK] ∧
    (held.takeDue (.lease 0 keyK)).device = .ready ∧
    exec .tick { ready with device := .boot, restartTick := true } =
      .next { ready with device := .boot, restartTick := false } ∧
    ({ ready with hold := .due } : State).dueEvents = [.holdEnd] ∧
    (after .tick { ready with hold := .due }).device = .boot ∧
    (after .tick ready).now = 51#32 ∧ (after .tick { ready with now := maxWord }).now = 0#32 ∧
    (after .tick { ready with hold := .holding }).hold = .due ∧
    (after .tick held).slot 0 0 = .pinned keyK 90#32 ∧
    (reserved (.guard 50#32)).dueEvents = [.guard 0] ∧ queued.dueEvents.length = 2 := by
  refine ⟨?_, ?_, ?_, rfl, ?_, rfl, ?_, ?_, ?_, ?_, ?_, ?_⟩ <;> decide +kernel

/-! ### Notices and queries -/

theorem test_witness_SlotAndNoticeCommands_mySlot :
    Taken held 0 (.mySlot 0 7#8) ∧ replyTo held 0 (.mySlot 0 8#8) = some (.badParam, .none) ∧
    replyTo held 0 (.mySlot 0 7#8) = some (.ok, .mySlot .free 0) ∧
    replyTo noticed 0 (.mySlot 0 0#8) = some (.ok, .mySlot (.pinned keyK 90#32) 1) := by decide +kernel

theorem test_witness_SlotAndNoticeCommands_peek :
    Taken ready 0 (.peekNotice 0) ∧ TakenDetached ready 0 (.peekNotice 0) ∧
    replyTo ready 0 (.peekNotice 0) = some (.noNotice, .none) ∧
    replyTo noticed 0 (.peekNotice 0) =
      some (.ok, .notice ⟨0#8, .lapsed, keyK, 0, 90#32, .none, 40#32⟩ 1) := by decide +kernel

theorem test_witness_SlotAndNoticeCommands_ack :
    let twice := noticed.setPort 0 { noticed.port 0 with
      notices := (noticed.port 0).notices ++ [⟨1#8, .revoked, keyK, 0, 90#32, .none, 41#32⟩] }
    Taken noticed 0 (.ackNotice 0 0#8) ∧ TakenDetached noticed 0 (.ackNotice 0 0#8) ∧
    replyTo ready 0 (.ackNotice 0 0#8) = some (.noNotice, .none) ∧
    replyTo noticed 0 (.ackNotice 0 1#8) = some (.badSeq, .none) ∧
    replyTo noticed 0 (.ackNotice 0 0#8) = some (.ok, .remaining 0 .free) ∧
    replyTo twice 0 (.ackNotice 0 0#8) = some (.ok, .remaining 1 (.pinned keyK 90#32)) := by decide +kernel

theorem test_witness_LookupListOutcome :
    let blind := withSettings queued 3 fun st => { st with rights := ⟨true, false, true, true⟩ }
    let masked := withSettings queued 3 fun st =>
      { st with rights := ⟨true, false, true, true⟩, classMask := 0xFFFD#16 }
    Taken queued 3 (.lookup 3 keyK) ∧ Taken queued 3 (.list 3 0#8) ∧
    replyTo queued 3 (.lookup 3 0#32) = some (.badParam, .none) ∧
    replyTo masked 3 (.lookup 3 keyK) = some (.classDenied, .none) ∧
    replyTo queued 3 (.lookup 3 keyL) = some (.noRecord, .none) ∧
    replyTo blind 3 (.lookup 3 keyK) = some (.ok, .record ⟨keyK, 0, some .exclusive,
      [⟨0, .exclusive, 0#32, 0#32⟩], [⟨1, .exclusive, .queued⟩], some (0, .high)⟩) ∧
    replyTo blind 3 (.list 3 0#8) = some (.noRight, .none) ∧
    replyTo queued 3 (.list 3 1#8) = some (.endOfTable, .none) ∧
    replyTo queued 3 (.list 3 0#8) = some (.ok, .record ⟨keyK, 0, some .exclusive,
      [⟨0, .exclusive, 0#32, 90#32⟩], [⟨1, .exclusive, .queued⟩], some (0, .high)⟩) := by decide +kernel

/-- The mode of a record with SHARED holdings alone, and of one without a holding. -/
theorem test_witness_LookupListOutcome_mode :
    let shared := ready.setRecord 2 (some ((Record.fresh keyL).setHolder 1 (some ⟨.shared, 90#32, 55#32, 4⟩)))
    replyTo shared 3 (.lookup 3 keyL) =
      some (.ok, .record ⟨keyL, 2, some .shared, [⟨1, .shared, 5#32, 90#32⟩], [], none⟩) ∧
    replyTo (reserved .idle) 3 (.lookup 3 keyK) =
      some (.ok, .record ⟨keyK, 0, none, [], [⟨1, .exclusive, .reserved⟩], some (0, .idle)⟩) := by decide +kernel

theorem test_witness_TimeStatusIdentReplies :
    TakenDetached ready 1 (.time 1) ∧ Taken ready 1 (.time 1) ∧ Taken ready 1 (.status 1) ∧
    Taken ready 1 (.ident 1) ∧ Taken ready 1 (.stageStatus 1) ∧
    replyTo ready 1 (.ident 1) = some (.ok, .ident (some ⟨0#16, 0#16, 0#8, 0#32, 0#16⟩)) ∧
    replyTo ready 1 (.stageStatus 1) =
      some (.ok, .staging ⟨.idle, none, none, .none, 0#16, 0#16, false⟩) := by decide +kernel

/-! ### The serial link -/

theorem test_witness_FramingChecks :
    readFrame 0 [] = .fault ∧ readFrame 0 [0x03#8, 0x01#8, 0x10#8] = .fault ∧
    readFrame 0 [0x03#8, 0x01#8, 0x10#8, 0xF2#8] = .fault ∧
    readFrame 0 (frameOf 1#4 0x10#8 [0#8]) = .fault ∧
    readFrame 0 (frameOf 1#4 0x7F#8 []) = .unknown 1#4 0x7F#8 := by decide +kernel

theorem test_witness_PinChangesOneByOne :
    let other := inside (some .poll) true [] []
    exec (.send 0 (.csn true) []) other = .next { other with free := 1 } ∧
    exec (.poll 0 (.csn false) []) other = .next { other with free := 1 } ∧
    ((after (.fetch 0 (.csn false) [.sck true]) { ready with device := .inReset }).port 0).pins =
      ⟨false, true, false⟩ ∧
    ((after (.fetch 0 (.csn false) [.sck true]) { ready with device := .inReset }).port 0).transfer =
      none ∧
    (after (.poll 0 (.csn true) []) (after (.poll 0 (.sck false) []) other)) =
      after (.poll 0 (.sck false) [.csn true]) other := by
  refine ⟨rfl, rfl, ?_, ?_, ?_⟩ <;> decide +kernel

theorem test_witness_TransactionBegins :
    let high := ready.setPort 0 { ready.port 0 with pins := ⟨true, true, false⟩ }
    (ready.port 0).pins.csn = true ∧ (ready.port 0).transfer = none ∧ (ready.port 0).pins.sck = false ∧
    ((after (.fetch 0 (.csn false) []) ready).port 0).sdo = some false ∧
    ((after (.fetch 0 (.csn false) []) ready).port 0).transfer =
      some ⟨.mode0, none, [], (bitsOfByte 0x02#8).tail⟩ ∧
    ((after (.send 0 (.csn false) []) high).port 0).transfer = some ⟨.mode3, none, [], bitsOfByte 0x02#8⟩ ∧
    ((after (.send 0 (.csn false) []) high).port 0).sdo.isSome = true := by decide +kernel

/-- Every fall of SCK, and a rise that completes no byte. -/
theorem test_witness_TransactionClocked_sck :
    let low := ready.setPort 0 { ready.port 0 with pins := ⟨false, true, false⟩ }
    ((after (.send 0 (.sck true) []) ready).port 0).transfer = none ∧
    (low.port 0).transfer = none ∧ (low.port 0).pins.csn = false ∧
    ((after (.poll 0 (.sck false) [.sck true]) low).port 0).sampled.length ≤ 1 ∧
    ((after (.poll 0 (.sck false) []) low).port 0).sdo.isSome = true ∧
    ((after (.send 0 (.sck false) []) (inside none true [] [false, true])).port 0).sdo = some false ∧
    ((after (.fetch 0 (.sck false) []) (inside (some .fetch) true [] [])).port 0).sdo = some true ∧
    ((after (.unrecognisedKindByte 0 (.sck false) [])
      (inside (some .unrecognised) true [] [])).port 0).sdo.isSome = true ∧
    ((after (.send 0 (.sck true) []) (inside none false [] [])).port 0).transfer =
      some ⟨.mode0, none, [true], []⟩ := by decide +kernel

/-- Every kind of byte at the eighth rise of SCK. -/
theorem test_witness_TransactionClocked_byte :
    let after' := fun (c : Instr) (s : State) => ((after c s).port 0).transfer
    let status := bitsOfByte 0x02#8
    after' (.send 0 (.sck true) []) (lastBit none 0xA1#8) = some ⟨.mode0, some .send, [], status⟩ ∧
    after' (.fetch 0 (.sck true) []) (inside none false ((bitsOfByte 0xA3#8).take 7) []) =
      some ⟨.mode0, some .unrecognised, [], []⟩ ∧
    after' (.send 0 (.sck true) []) (lastBit (some .send) 0xFF#8) =
      some ⟨.mode0, some .send, [], status⟩ ∧
    ((after (.send 0 (.sck true) []) (lastBit (some .send) 0xFF#8)).port 0).rx = [0xFF#8] ∧
    after' (.poll 0 (.sck true) []) (lastBit (some .poll) 0x01#8) =
      some ⟨.mode0, some .poll, [], status⟩ ∧
    after' (.fetch 0 (.sck true) []) (lastBit (some .fetch) 0x01#8) =
      some ⟨.mode0, some .fetch, [], [false]⟩ := by decide +kernel

/-- A FETCH of an empty slot in mode 3, a POLL in mode 0. -/
theorem test_witness_WholeTransactions_fetchAndPoll :
    ((after (.fetch 0 (.sck true) (whole [0xA2#8, 0#8, 0#8])) ready).port 0).sampled =
      bitsOfBytes [0x02#8, 0x00#8, 0xFF#8] ∧
    ((after (.poll 0 (.sck false) (whole [0xA4#8])) (ready.setPort 0
      { ready.port 0 with frameError := true, overrun := true })).port 0).sampled =
      bitsOfByte 0x62#8 := by decide +kernel

/-- A POLL held open across the completion of a command: EXECUTING, then REPLY_READY (R150, R152). -/
theorem test_statusChangesInsideAPoll :
    let begun := after (.poll 0 (.csn false) (clocked (bitsOfBytes [0xA4#8]))) (ask ready 0 (.time 0))
    let ended := after (.poll 0 (.sck false) (clocked (bitsOfBytes [0#8, 0#8]) ++ [.csn true])) (after (.time 0) begun)
    (ended.port 0).sampled = bitsOfBytes [0x06#8, 0x06#8, 0x0A#8] := by decide +kernel

/-- A reset ends the transaction in progress, and the port ignores it to the rise of CSn, SDO being
high-impedance in IN_RESET and driven from the entry into BOOT to that rise (R136, R138, R154). -/
theorem test_resetEndsATransaction :
    let begun := after (.poll 0 (.csn false) (clocked [true])) ready
    let reset := after .rstTakenLow begun
    let again := after .rstTakenHigh reset
    (reset.port 0).pins.csn = false ∧ (reset.port 0).sdo = none ∧ (again.port 0).sdo.isSome = true ∧
    ((after (.poll 0 (.sck false) (clocked [true])) again).port 0).sdo.isSome = true ∧
    ((after (.poll 0 (.csn true) []) again).port 0).sdo = none ∧ (again.port 1).sdo = none ∧
    (begun.port 0).transfer.isSome = true ∧ (again.port 0).transfer = none ∧ again.device = .boot ∧
    ((after (.poll 0 (.sck false) (clocked (bitsOfBytes [0xA1#8]) ++ [.csn true])) again).port 0).frameError = false ∧
    ((after (.poll 0 (.sck false) (clocked (bitsOfBytes [0xA1#8]) ++ [.csn true])) again).port 0).rx = [] := by decide +kernel

theorem test_witness_SendDecision :
    let hello := [0x03#8, 0x01#8, 0x10#8, 0xF3#8]
    let replied := ready.setPort 0 { ready.port 0 with
      lastTag := some 1#4, slot := .filled ⟨1#4, 0x10#8, .ok, false, .none⟩ }
    let t := fun (s : State) rx => (after (.send 0 (.csn true) []) (sent s rx)).port 0
    (t ready hello).slot = .pending 1#4 (.hello 0) ∧ (t ready []).frameError = true ∧
    (t (ask ready 0 (.bye 0)) hello).overrun = true ∧
    (t replied hello).slot = .filled ⟨1#4, 0x10#8, .ok, true, .none⟩ ∧
    (t ready (frameOf 2#4 0x7F#8 [])).slot = .filled ⟨2#4, 0x7F#8, .unknownCommand, false, .none⟩ ∧
    (t (replied.setPort 0 { replied.port 0 with lastTag := some 2#4 }) (frameOf 2#4 0x7F#8 [])).slot =
      .filled ⟨1#4, 0x10#8, .ok, true, .none⟩ ∧
    (t { ready with device := .boot } []).frameError = false ∧ (t ready hello).sdo = none := by decide +kernel

theorem test_witness_TransactionEnds :
    let marked := fun k => (inside k true [] []).setPort 0
      { (inside k true [] []).port 0 with frameError := true, overrun := true }
    ((after (.poll 0 (.csn true) []) (marked (some .poll))).port 0).frameError = false ∧
    ((after (.poll 0 (.csn true) []) (marked (some .poll))).port 0).overrun = false ∧
    ((after (.fetch 0 (.csn true) []) (marked (some .fetch))).port 0).overrun = true ∧
    ((after (.send 0 (.csn true) []) (marked none)).port 0).frameError = true ∧
    ((after (.send 0 (.csn true) []) (inside none true [] [])).port 0).frameError = false ∧
    ((after (.unrecognisedKindByte 0 (.csn true) [])
      (inside (some .unrecognised) true [] [])).port 0).frameError = true ∧
    ((after (.unrecognisedKindByte 0 (.csn true) [])
      { inside (some .unrecognised) true [] [] with device := .boot }).port 0).frameError = false := by decide +kernel

theorem test_witness_WholeTransactions_fetch :
    ((after (.fetch 0 (.sck true) (whole (0xA2#8 :: List.replicate 7 0#8))) (ask ready 0 (.hello 0))).port 0).sampled =
      bitsOfBytes (0x06#8 :: frameOf 1#4 0x10#8 [0x1C#8, 0x00#8] ++ [0xFF#8]) := by decide +kernel

theorem test_witness_WholeTransactions_unrecognised :
    let t := after (.unrecognisedKindByte 0 (.sck false) (whole [0x00#8])) ready
    (t.port 0).sampled = bitsOfByte 0x02#8 ∧ (t.port 0).frameError = true ∧ (t.port 0).sdo = none := by decide +kernel

theorem test_witness_WholeTransactions_send :
    ((after (.send 2 (.sck false) (whole [0xA1#8, 0x03#8, 0x01#8, 0x10#8, 0xF3#8])) ready).port 2).slot =
      .pending 1#4 (.hello 2) := by decide +kernel

theorem test_witness_StatusByteAndLines :
    statusByte .boot PortUnit.reset = 0x81#8 ∧
    statusByte .ready ((ask noticed 0 (.hello 0)).port 0) = 0x16#8 ∧ (noticed.port 0).attnLow = true := by decide +kernel

theorem test_witness_ReadFrameOfEncodeFrame :
    let c := Instr.acquire 3 maxWord 1#8 60000#16 0#16
    (wireOf c).isSome = true ∧ (encodeFrame 15#4 c).isSome = true ∧
    readFrame 3 (((encodeFrame 15#4 c).getD []) ++ [0x55#8]) = .command 15#4 c := by decide +kernel

/-! ### Staging, commits and rows -/

theorem test_witness_StageBeginOutcome :
    let noRight := withSettings ready 0 fun st => { st with rights := ⟨true, true, true, false⟩ }
    Taken ready 0 (.stageBegin 0) ∧ TakenDetached ready 0 (.stageBegin 0) ∧
    replyTo noRight 0 (.stageBegin 0) = some (.noRight, .none) ∧
    replyTo { ready with cfg := { ready.cfg with storeFrozen := true } } 0 (.stageBegin 0) =
      some (.frozen, .none) ∧
    replyTo (staged boundImage) 1 (.stageBegin 1) = some (.stageOwned, .none) ∧
    replyTo ready 0 (.stageBegin 0) = some (.ok, .none) ∧
    (after (.stageBegin 0) (ask ready 0 (.stageBegin 0))).cfg.image = some boundImage := by decide +kernel

theorem test_witness_StageEditOutcome :
    let s := staged boundImage
    Taken s 0 (.stageSet 0 6#8 3#8 10000#32) ∧ Taken s 0 (.stageRead 0 5#8 0#8) ∧
    Taken s 0 (.stageAbort 0) ∧ s.cfg.staging = .opened ∧ s.cfg.owner = some 0 ∧
    s.cfg.image = some boundImage ∧
    replyTo ready 0 (.stageAbort 0) = some (.notOpen, .none) ∧
    replyTo s 1 (.stageAbort 1) = some (.notOwner, .none) ∧
    replyTo s 0 (.stageSet 0 6#8 3#8 10000#32) = some (.ok, .field 6#8 3#8 10000#32) ∧
    replyTo s 0 (.stageSet 0 6#8 3#8 10001#32) = some (.badParam, .none) ∧
    replyTo s 0 (.stageSet 0 6#8 4#8 1#32) = some (.badParam, .none) ∧
    replyTo s 0 (.stageSet 0 8#8 0#8 1#32) = some (.badParam, .none) ∧
    replyTo s 0 (.stageSet 0 1#8 3#8 16#32) = some (.badParam, .none) ∧
    replyTo s 0 (.stageSet 0 2#8 0#8 65536#32) = some (.badParam, .none) ∧
    replyTo s 0 (.stageSet 0 3#8 0#8 60000#32) = some (.ok, .field 3#8 0#8 60000#32) ∧
    replyTo s 0 (.stageSet 0 4#8 0#8 60001#32) = some (.badParam, .none) ∧
    replyTo s 0 (.stageSet 0 5#8 0#8 maxWord) = some (.ok, .field 5#8 0#8 maxWord) ∧
    replyTo s 0 (.stageSet 0 7#8 0#8 2#32) = some (.badParam, .none) ∧
    replyTo s 0 (.stageRead 0 5#8 0#8) = some (.ok, .field 5#8 0#8 keyK) ∧
    replyTo s 0 (.stageRead 0 7#8 1#8) = some (.badParam, .none) ∧
    replyTo s 0 (.stageAbort 0) = some (.ok, .none) := by decide +kernel

/-- Each item sets the component it names. -/
theorem test_witness_StageEditOutcome_items :
    let set := fun item index value =>
      ((after (.stageSet 0 item index value)
        (ask (staged Image.factoryDefault) 0 (.stageSet 0 item index value))).cfg.image).getD boundImage
    ((set 1#8 2#8 9#32).port 2).rights = ⟨true, false, false, true⟩ ∧
    ((set 2#8 2#8 5#32).port 2).classMask = 5#16 ∧ ((set 3#8 2#8 11#32).port 2).maxLease = 11#16 ∧
    ((set 4#8 2#8 12#32).port 2).maxWait = 12#16 ∧ ((set 5#8 2#8 keyK).chan 2).key = keyK ∧
    ((set 6#8 2#8 13#32).chan 2).guard = 13#16 ∧ (set 7#8 0#8 1#32).frozen = true := by decide +kernel

theorem test_witness_CommitOutcome :
    let shared := boundImage.setChan 2 ⟨keyK, 0#16⟩
    let short := boundImage.setPort 3 { boundImage.port 3 with maxLease := 9#16 }
    let locked := { boundImage with ports := boundImage.ports.map fun st =>
      { st with rights := ⟨true, true, true, false⟩ } }
    let spent := { staged boundImage with cfg := { (staged boundImage).cfg with storedSeq := 65535#16 } }
    Taken (staged boundImage) 0 (.commit 0) ∧ (staged boundImage).store.engine = .idle ∧
    replyTo ready 0 (.commit 0) = some (.notOpen, .none) ∧
    replyTo (staged boundImage) 1 (.commit 1) = some (.notOwner, .none) ∧
    replyTo (staged shared) 0 (.commit 0) = some (.badImage, .badItem .gateKey 2) ∧
    replyTo (staged short) 0 (.commit 0) = some (.badImage, .badItem .maxLease 3) ∧
    replyTo (staged locked) 0 (.commit 0) = some (.badImage, .badItem .frozen 0) ∧
    replyTo (staged { locked with frozen := true }) 0 (.commit 0) = some (.ok, .target ⟨.a, 1⟩) ∧
    replyTo (staged boundImage) 0 (.commit 0) = some (.ok, .target ⟨.a, 1⟩) ∧
    (after (.commit 0) (ask (staged boundImage) 0 (.commit 0))).cfg.staging = .programming ∧
    replyTo spent 0 (.commit 0) = some (.ok, .target ⟨.a, 65536⟩) ∧
    (after (.commit 0) (ask spent 0 (.commit 0))).cfg.lastResult = .refused := by decide +kernel

/-- Of the equal pairs 0-3 and 1-2 the lower is 0-3, and of 0-1 and 0-3 it is 0-1 (R170, log 15). -/
theorem test_witness_CommitOutcome_pair :
    let two := (boundImage.setChan 3 ⟨keyK, 0#16⟩).setChan 1 ⟨keyL, 0#16⟩
    let crossed := two.setChan 2 ⟨keyL, 0#16⟩
    let triple := (boundImage.setChan 3 ⟨keyK, 0#16⟩).setChan 1 ⟨keyK, 0#16⟩
    crossed.sharedKey = some (0, 3) ∧
    replyTo (staged crossed) 0 (.commit 0) = some (.badImage, .badItem .gateKey 3) ∧
    triple.sharedKey = some (0, 1) ∧
    replyTo (staged triple) 0 (.commit 0) = some (.badImage, .badItem .gateKey 1) ∧
    Image.factoryDefault.sharedKey = none := by decide +kernel

/-- The engine busy, supply-low set, and an advance waiting at an idle engine. -/
theorem test_witness_CommitOutcome_waits :
    let s := staged boundImage
    let busy := { s with store := { s.store with engine := .busy advanceReq .first .erase } }
    let low := { s with supply := ⟨.released, true, none⟩ }
    let behind := { s with store := { s.store with advanceInput := some advanceReq } }
    replyTo busy 0 (.commit 0) = some (.ok, .target ⟨.a, 1⟩) ∧
    (after (.commit 0) (ask busy 0 (.commit 0))).cfg.staging = .commitPending ∧
    (after (.commit 0) (ask low 0 (.commit 0))).store.commitInput = some commitReq ∧
    (after (.commit 0) (ask behind 0 (.commit 0))).store =
      { s.store with commitInput := some commitReq, engine := .busy advanceReq .first .erase } := by
  decide +kernel

theorem test_witness_RowClasses :
    boundImage.inRange = true ∧ boundImage.sharedKey = none ∧ boundImage.changeable = true ∧
    copyClass (copyRowOne 65535#16 boundImage) (copyRowTwo 65535#16 boundImage) =
      .valid 65535#16 boundImage ∧
    reserveClass (reserveRow 1#32) = .valid 1#32 ∧ reserveClass (reserveRow maxWord) = .valid maxWord := by
  decide +kernel

/-- The classes at their bounds: a floor of 0, a wrong CRC or inverted floor, and a copy whose rows differ in
sequence, whose sequence is 0, whose frozen byte is 02h or whose row is blank. -/
theorem test_witness_RowClasses_others :
    let row := reserveRow 5#32
    let one := copyRowOne 5#16 boundImage
    let mended := fun r : Row =>
      let crc := crc16 (r.toList.take 30)
      (r.set 30 (crc.extractLsb' 8 8)).set 31 (crc.extractLsb' 0 8)
    reserveClass (reserveRow 0#32) = .corrupt ∧ reserveClass blankRow = .blank ∧
    reserveClass (row.set 31 (row[31] ^^^ 1#8)) = .corrupt ∧
    reserveClass (mended (row.set 7 0#8)) = .corrupt ∧
    copyClass one (copyRowTwo 6#16 boundImage) = .corrupt ∧
    copyClass (copyRowOne 0#16 boundImage) (copyRowTwo 0#16 boundImage) = .corrupt ∧
    copyClass (mended (one.set 2 2#8)) (copyRowTwo 5#16 boundImage) = .corrupt ∧
    copyClass one blankRow = .corrupt ∧ copyClass blankRow blankRow = .blank := by decide +kernel

/-- The target rows of R67. -/
theorem test_advanceTarget :
    advanceTarget (some .a) (.valid 5#32) .blank = .b ∧ advanceTarget (some .b) .corrupt (.valid 5#32) = .a ∧
    advanceTarget none .blank .corrupt = .b ∧ advanceTarget none .corrupt .blank = .a ∧
    advanceTarget none .blank .blank = .a := by decide +kernel

theorem test_witness_RowPhases :
    let erasing := { ready with store := { ready.store with engine := .busy advanceReq .first .erase } }
    let written := after .rowWriteDone (after .rowEraseDone erasing)
    (after .rowEraseDone erasing).store.row (.reserve .b) = blankRow ∧
    written.store.engine = .busy advanceReq .first .verify ∧
    reserveClass (written.store.row (.reserve .b)) = .valid 612#32 ∧
    exec .rowWriteDone erasing = .next erasing ∧ exec .rowEraseDone ready = .next ready := by
  refine ⟨?_, ?_, ?_, rfl, rfl⟩ <;> decide +kernel

theorem test_witness_AdvanceRowEnds :
    let s := verifying (tokens ready ⟨330#32, 356#32, .advancing, some .a, true, 1#32⟩) advanceReq .first
    (after (.rowVerifyEnd true) s).tok = ⟨330#32, 612#32, .normal, some .b, false, 1#32⟩ ∧
    (after (.rowVerifyEnd true) s).availSweep = some 0 ∧
    (after (.rowVerifyEnd false) s).store.engine = .busy advanceReq .second .erase ∧
    (after (.rowVerifyEnd false) (verifying s advanceReq .second)).tok.state = .storeFault ∧
    (after (.rowVerifyEnd false) (verifying s advanceReq .second)).faultSweep = some 0 ∧
    (after (.rowVerifyEnd true) (verifying (tokens s ⟨600#32, 356#32, .advancing, some .a, false, 1#32⟩)
      advanceReq .first)).store.engine =
        .busy ⟨.reserve .a, reserveRow 868#32, .tokenUnit⟩ .first .erase ∧
    (after (.rowVerifyEnd true) { s with store := { s.store with commitInput := some commitReq } }).store.engine =
      .busy commitReq .first .erase := by
  refine ⟨?_, ?_, ?_, rfl, rfl, ?_, ?_⟩ <;> rfl

theorem test_witness_CommitRowEnds :
    let s := verifying committing commitReq .first
    let two := secondRowRequest ⟨.a, 1⟩ boundImage
    s.cfg.target = some ⟨.a, 1⟩ ∧ s.cfg.image = some boundImage ∧ s.store.advanceInput = none ∧
    s.store.commitInput = none ∧
    (after (.rowVerifyEnd true) s).store.engine = .busy two .first .erase ∧
    (after (.rowVerifyEnd true) (verifying committing two .first)).cfg.lastResult = .done ∧
    (after (.rowVerifyEnd true) (verifying committing two .first)).cfg.recordA = some 1#16 ∧
    (after (.rowVerifyEnd false) (verifying committing two .second)).cfg.lastResult = .failed ∧
    (after (.rowVerifyEnd false) s).store.engine = .busy commitReq .second .erase ∧
    (after (.rowVerifyEnd true) { s with store := { s.store with advanceInput := some advanceReq } }).store =
      { s.store with advanceInput := none, commitInput := some two, engine := .busy advanceReq .first .erase } := by
  refine ⟨?_, ?_, ?_, ?_, ?_, ?_, ?_, ?_, ?_, ?_⟩ <;> rfl

/-! ### Start-up, supply and restart -/

/-- From reset to the first tokens: the boot advance from floor 1 to 257 (R56, R68, R185). -/
theorem test_bootOfAShippedPart :
    let s := after .supplyLowClear (after .bootEnd State.reset)
    (after .bootEnd State.reset).device = .ready ∧
    s.store.engine = .busy ⟨.reserve .a, reserveRow 257#32, .tokenUnit⟩ .first .erase ∧
    (after (.rowVerifyEnd true) (after .rowWriteDone (after .rowEraseDone s))).tok =
      ⟨1#32, 257#32, .normal, some .a, false, 1#32⟩ := by decide +kernel

theorem test_witness_StartUpSelection :
    let second := { boundImage with frozen := true }
    (selectConfig (.valid 3#16 boundImage) (.valid 3#16 second)).effective = boundImage ∧
    (selectConfig (.valid 3#16 boundImage) (.valid 3#16 second)).storeFrozen = true ∧
    (selectConfig (.valid 3#16 boundImage) (.valid 4#16 second)).effectiveSeq = 4#16 ∧
    (selectConfig .blank .blank).defaulted = false ∧ (selectConfig .blank .corrupt).defaulted = true ∧
    (startChannel ⟨keyK, 20#16⟩ true).state = .guard 20#32 ∧
    (startChannel ⟨keyK, 0#16⟩ true).state = .idle ∧ (startChannel ⟨0#32, 20#16⟩ true).state = .unbound ∧
    readFactory blankRow = none ∧ readFactory (rowOf [1#8, 2#8, 3#8, 4#8, 5#8, 6#8, 7#8, 8#8, 9#8, 10#8, 11#8]) =
      some ⟨0x0102#16, 0x0304#16, 5#8, 0x06070809#32, 0x0A0B#16⟩ := by decide +kernel

theorem test_witness_ResetCauses :
    let off := after .supplyBelowPowerOnLevel held
    (after .brownout held).supply = ⟨.held, true, some .brownout⟩ ∧
    (after .rstTakenLow held).supply.cause = some .pin ∧ off.supply = ⟨.off, false, none⟩ ∧
    off.device = .inReset ∧ (after .powerOn off).supply = ⟨.held, true, some .powerOn⟩ ∧
    exec .powerOn held = .next held ∧ exec .brownout off = .next off ∧
    exec .rstTakenLow off = .next { off with rstLow := true } := by
  refine ⟨?_, ?_, ?_, ?_, ?_, rfl, rfl, rfl⟩ <;> decide +kernel

/-- A reset in the verify phase leaves the row, and the pins keep their levels. -/
theorem test_witness_ResetCauses_row :
    let s := verifying (held.setPort 0 { held.port 0 with pins := ⟨false, true, true⟩ }) advanceReq .first
    let t := after .brownout s
    t.store.row (.reserve .b) = s.store.row (.reserve .b) ∧ t.store.engine = .idle ∧
    (t.port 0).pins = ⟨false, true, true⟩ ∧ t.table = Vector.replicate 24 none := by decide +kernel

/-- A RESTART and a low RST in the same tick, in both orders (R181, R190). -/
theorem test_restartAndPinInOneTick :
    let s := after .restartHoldEnd { held with hold := .due }
    let t := after .rstTakenLow s
    s.device = .boot ∧ s.restartTick = true ∧ t.device = .inReset ∧ t.supply.cause = some .restart ∧
    (after .rstTakenHigh t).device = .boot ∧ (after .rstTakenHigh t).supply.cause = some .restart ∧
    (after .rstTakenLow (after .tick s)).supply.cause = some .pin ∧
    (after .rstTakenLow { held with hold := .due }).supply.cause = some .pin := by decide +kernel

theorem test_witness_LeavingReset :
    let low := after .brownout held
    let pin := after .rstTakenLow held
    low.supply.region = .held ∧ low.device = .inReset ∧ low.rstLow = false ∧
    (after .supplyRelease low).device = .boot ∧
    (after .supplyRelease { low with rstLow := true }).device = .inReset ∧
    pin.device = .inReset ∧ pin.supply.region = .released ∧ (after .rstTakenHigh pin).device = .boot ∧
    (after .rstTakenHigh { low with rstLow := true }).device = .inReset ∧
    (after .restartHoldEnd { held with hold := .due }).device = .boot ∧
    (after .restartHoldEnd { held with hold := .due }).supply.cause = some .restart ∧
    (after .restartHoldEnd { held with hold := .due, rstLow := true }).device = .inReset ∧
    (after .restartHoldEnd { held with hold := .due }).restartTick = true ∧
    exec .supplyRelease held = .next held ∧ exec .restartHoldEnd held = .next held := by
  refine ⟨?_, ?_, ?_, ?_, ?_, ?_, ?_, ?_, ?_, ?_, ?_, ?_, ?_, rfl, rfl⟩ <;> rfl

theorem test_witness_SupplyLevels :
    let waiting := { ready with supply := ⟨.released, true, none⟩, store :=
      { ready.store with advanceInput := some advanceReq, commitInput := some commitReq } }
    (after .supplyLowSet ready).supply.low = true ∧
    (after .supplyLowClear waiting).store.engine = .busy advanceReq .first .erase ∧
    (after .supplyLowClear waiting).store.commitInput = some commitReq ∧
    (after .supplyBelowBrownoutInReset (after .rstTakenLow ready)).supply.region = .held ∧
    exec .supplyBelowBrownoutInReset ready = .next ready ∧
    exec .supplyLowSet { ready with supply := ⟨.off, false, none⟩ } =
      .next { ready with supply := ⟨.off, false, none⟩ } ∧
    exec .supplyLowClear { ready with supply := ⟨.held, true, none⟩ } =
      .next { ready with supply := ⟨.held, true, none⟩ } := by
  refine ⟨?_, ?_, ?_, ?_, ?_, ?_, ?_⟩ <;> rfl

/-- A commit row that waits alone is started, or refused (R158, R172). -/
theorem test_witness_SupplyLevels_commit :
    let waiting := { committing with supply := ⟨.released, true, none⟩, store :=
      { committing.store with commitInput := some commitReq } }
    let spent := { waiting with cfg := { waiting.cfg with target := some ⟨.a, 65536⟩ } }
    (after .supplyLowClear waiting).store.engine = .busy commitReq .first .erase ∧
    (after .supplyLowClear waiting).cfg.staging = .programming ∧
    (after .supplyLowClear spent).store.engine = .idle ∧
    (after .supplyLowClear spent).cfg.lastResult = .refused ∧
    exec .supplyLowClear (verifying waiting advanceReq .first) =
      .next { verifying waiting advanceReq .first with supply := ⟨.released, false, none⟩ } := by
  refine ⟨?_, ?_, ?_, ?_, ?_⟩ <;> rfl

theorem test_witness_RestartAndBootEnd :
    let noRight := withSettings ready 0 fun st => { st with rights := ⟨true, true, true, false⟩ }
    let atMax := { tokens State.reset ⟨maxWord, maxWord, .tokensSpent, some .a, false, maxWord⟩ with
      supply := ready.supply }
    Taken ready 0 (.restart 0) ∧ TakenDetached ready 0 (.restart 0) ∧
    replyTo noRight 0 (.restart 0) = some (.noRight, .none) ∧
    replyTo ready 0 (.restart 0) = some (.ok, .none) ∧
    (after (.restart 0) (ask ready 0 (.restart 0))).hold = .holding ∧
    State.reset.tok.G = State.reset.tok.F ∧ State.reset.device = .boot ∧
    exec .bootEnd ready = .next ready ∧
    exec .bootEnd { atMax with restartTick := true } = .next { atMax with device := .ready } := by
  refine ⟨?_, ?_, ?_, ?_, ?_, ?_, ?_, rfl, ?_⟩
  case refine_8 => rfl
  all_goals decide +kernel

/-! ### Laws of every step -/

theorem test_witness_FactoryRowAndConfigurationFixed :
    ∃ t, exec .rowEraseDone { ready with store := { ready.store with
      engine := .busy advanceReq .first .erase } } = .next t ∧ ready.device = .ready ∧
    t.device = .ready := by exact ⟨_, rfl, rfl, rfl⟩

theorem test_witness_GuardLaw :
    ∃ t, exec .tick (reserved (.guard 51#32)) = .next t ∧ t.device = .ready ∧
    ((reserved (.guard 51#32)).chan 0).state = .guard 51#32 ∧ (51#32 : Word) ≠ (reserved (.guard 51#32)).now ∧
    (t.chan 0).state = .guard 51#32 := by exact ⟨_, rfl, rfl, rfl, by decide, rfl⟩

/-- The claim table with a holding and a waiter behind it, both due now. -/
theorem test_claimTableInv_queued : ClaimTableInv queued := by
  have alone : ∀ i : RecIx, i ≠ 0 → queued.record i = none := by decide +kernel
  have only : ∀ i : RecIx, ∀ r ∈ queued.record i, i = 0 := by
    intro i r h
    by_contra ne
    rw [alone i ne] at h
    cases h
  have slots : ∀ (p : Port) (k : SlotIx),
      p = 0 ∧ k = 0 ∨ p = 1 ∧ k = 0 ∨ queued.slot p k = .free := by decide +kernel
  have unnamed : ∀ p : Port, (queued.port p).notices = [] := by decide +kernel
  refine ⟨?_, ?_, ?_, ?_, ?_⟩
  · intro i r h
    obtain rfl := only i r h
    cases h
    refine ⟨?_, ?_, ⟨?_, ?_⟩, ?_, ?_, ?_, ?_⟩ <;> decide +kernel
  · intro i j r h r' h' _
    rw [only i r h, only j r' h']
  · intro p k
    rcases slots p k with ⟨rfl, rfl⟩ | ⟨rfl, rfl⟩ | h
    · have e : queued.slot 0 0 = .holding keyK .exclusive 90#32 50#32 := by decide +kernel
      simp only [SlotInv, e, unnamed]
      exact ⟨by decide, 0, _, rfl, rfl, _, rfl, rfl⟩
    · have e : queued.slot 1 0 = .waiting keyK .exclusive 50#32 30#16 := by decide +kernel
      simp only [SlotInv, e, unnamed]
      exact ⟨by decide, 0, _, rfl, rfl, entry .queued, by decide +kernel, rfl, rfl⟩
    · simp [SlotInv, h, unnamed]
  · decide +kernel
  · decide +kernel

/-- A configuration unit with staging idle, no commit row, sequence 0 and a store that is not frozen. -/
theorem configInv_of_idle {s : State} (limits : s.cfg.effective.inRange = true)
    (staging : s.cfg.staging = .idle) (owner : s.cfg.owner = none) (image : s.cfg.image = none)
    (target : s.cfg.target = none) (rows : s.noCommitRow) (unused : ∀ side, s.cfg.record side = none)
    (seq : s.cfg.storedSeq = 0#16) (frozen : s.cfg.storeFrozen = false) : ConfigInv s where
  limits := limits
  notReady _ := staging
  idle _ := ⟨owner, image, target, rows⟩
  opened h := by rw [staging] at h; cases h
  committed h := by rw [staging] at h; rcases h with h | h <;> cases h
  commitPending h := by rw [staging] at h; cases h
  programming h := by rw [staging] at h; cases h
  records side q h := by rw [unused side] at h; cases h
  newest h := (h seq).elim
  frozen h := by rw [frozen] at h; cases h

/-- DeadlineInvariantKept and TickAdvances: two events are due, and every premise holds. -/
theorem test_witness_DeadlineInvariantKept :
    ClaimTableInv queued ∧ DeviceInv queued ∧ ConfigInv queued ∧ DeadlineInv queued ∧
    queued.dueEvents = [.lease 0 keyK, .wait 1 keyK] ∧
    ∃ t, step { queued with pending := [.tick] } = .next t := by
  refine ⟨test_claimTableInv_queued, ⟨?_, ?_, ?_, ?_, ?_, ?_, ?_, ?_⟩, ?_, ⟨?_, ?_, ?_, ?_⟩, ?_, _, rfl⟩
  case refine_9 =>
    apply configInv_of_idle <;> try rfl
    · exact ⟨rfl, by decide +kernel⟩
    · intro side; cases side <;> rfl
  case refine_13 =>
    intro ch
    have at_ : (queued.chan ch).guard = (queued.cfg.effective.chan ch).guard ∧
        (queued.chan ch).guard ≤ 10000#16 ∧
        ((queued.chan ch).state = .high ∨ (queued.chan ch).state = .unbound) := by
      revert ch; decide +kernel
    refine ⟨at_.1, at_.2.1, ?_⟩
    intro deadline h
    rcases at_.2.2 with e | e <;> (rw [e] at h; cases h)
  case refine_6 => intro h; exact (h rfl).elim
  case refine_7 => intro h; exact (h rfl).elim
  case refine_8 => intro h; exact (h rfl).elim
  all_goals decide +kernel

theorem test_frozenPart_copy : frozenPart.copyRowsClass .a = .valid 1#16 frozenImage := by decide +kernel

theorem test_floorInv_frozenPart : FloorInv frozenPart := by
  have blank : ∀ side, frozenPart.reserveRowClass side = .blank := by
    intro side; cases side <;> decide +kernel
  refine ⟨?_, by decide +kernel, fun _ => ⟨?_, by decide +kernel⟩, ?_, ?_, ?_⟩
  · rw [blank]; decide
  · intro side h; cases h
  · intro _ _ side floor h; rw [blank side] at h; cases h
  · intro req attempt h; cases h
  · intro req side h; rcases h with h | h <;> cases h

theorem test_configInv_frozenPart : ConfigInv frozenPart := by
  have other : frozenPart.cfg.nextTarget.copy.other = .a := by decide +kernel
  have seq : frozenPart.cfg.storedSeq = 1#16 := by decide +kernel
  have record : frozenPart.cfg.record .a = some 1#16 := by decide +kernel
  have records : ∀ side, frozenPart.cfg.record side = if side = .a then some 1#16 else none := by
    intro side; cases side <;> decide +kernel
  have staging : frozenPart.cfg.staging = .idle := rfl
  have rows : frozenPart.noCommitRow := ⟨rfl, by decide +kernel⟩
  refine ⟨by decide +kernel, fun _ => staging, fun _ => ⟨rfl, rfl, rfl, rows⟩, ?_, ?_, ?_,
    ?_, ?_, ?_, fun _ => ⟨staging, .a, 1#16, frozenImage, test_frozenPart_copy, rfl⟩⟩
  · intro h; rw [staging] at h; cases h
  · intro h; rw [staging] at h; rcases h with h | h <;> cases h
  · intro h; rw [staging] at h; cases h
  · intro h; rw [staging] at h; cases h
  · intro side q h
    rw [records side] at h
    rw [seq]
    split at h
    · cases h; exact BitVec.le_refl _
    · cases h
  · intro _
    rw [other, seq]
    exact ⟨record, _, test_frozenPart_copy⟩

/-- A part whose store is frozen meets the premises. -/
theorem test_witness_ConfigurationInvariantKept_frozen :
    TokenInv frozenPart ∧ FloorInv frozenPart ∧ ConfigInv frozenPart ∧ frozenPart.storeIsFrozen ∧
    ∃ t, step { frozenPart with pending := [.supplyLowClear] } = .next t := by
  refine ⟨?_, test_floorInv_frozenPart, test_configInv_frozenPart, .inl rfl, _, rfl⟩
  unfold TokenInv; decide +kernel

/-- A commit in PROGRAMMING meets the premises. -/
theorem test_witness_ConfigurationInvariantKept_programming :
    TokenInv programmingFirst ∧ FloorInv programmingFirst ∧ ConfigInv programmingFirst ∧
    programmingFirst.cfg.staging = .programming ∧
    ∃ t, step { programmingFirst with pending := [.rowEraseDone] } = .next t := by
  have engine : programmingFirst.store.engine = .busy commitReq .first .erase := rfl
  have image : programmingFirst.cfg.image = some boundImage := rfl
  have staging : programmingFirst.cfg.staging = .programming := rfl
  have target : firstRowRequest programmingFirst.cfg.nextTarget boundImage = commitReq := rfl
  refine ⟨?_, ⟨by decide +kernel, by decide +kernel, fun _ => ⟨?_, by decide +kernel⟩, ?_, ?_, ?_⟩,
    ⟨by decide +kernel, fun h => (h rfl).elim, ?_, ?_,
      fun _ => ⟨rfl, rfl, _, image, by decide +kernel, by decide +kernel, by decide +kernel⟩,
      ?_, ?_, ?_, ?_, ?_⟩, staging, _, rfl⟩
  · unfold TokenInv; decide +kernel
  · intro side h; cases h
  · intro h; cases h
  · intro req attempt h
    rw [engine] at h
    injection h with _ _ phase
    cases phase
  · intro req side h row
    rcases h with h | h
    · rw [engine] at h
      rw [← Option.some.inj h] at row
      cases row
    · cases h
  · intro h; rw [staging] at h; cases h
  · intro h; rw [staging] at h; cases h
  · intro h; rw [staging] at h; cases h
  · intro _ img h
    rw [image] at h
    obtain rfl := Option.some.inj h
    exact ⟨by decide +kernel, .inl ⟨rfl, by rw [engine, target]; rfl⟩⟩
  · intro side; cases side <;> decide +kernel
  · intro h; exact (h rfl).elim
  · intro h; cases h

/-- TokenInvariantsKept, ClaimTableInvariantKept, GateInvariantKept, DeviceAndLinkInvariantsKept,
CommittedFloorNeverFalls, ConfigurationInvariantKept, DeadlineInvariantKept, StatusByteAndLines: the reset
state meets every invariant and steps. -/
theorem test_witness_Invariants :
    Safe State.reset ∧ ∃ t, step { State.reset with pending := [.bootEnd] } = .next t := by
  have empty : ∀ i : RecIx, State.reset.record i = none := by decide +kernel
  have free : ∀ (p : Port) (k : SlotIx), State.reset.slot p k = .free := by decide +kernel
  have unnamed : ∀ p : Port, (State.reset.port p).notices = [] := by decide +kernel
  have unfilled : ∀ p : Port, (State.reset.port p).slot = .empty := by decide +kernel
  have blank : ∀ side, State.reset.reserveRowClass side = .blank := by
    intro side; cases side <;> decide +kernel
  refine ⟨⟨?_, ?_, ⟨?_, ?_, ?_, ?_, ?_⟩, ⟨?_, ?_, ?_⟩, ?_,
    ⟨?_, ?_, ?_, ?_, ?_, ?_, ?_, ?_⟩, ?_, ?_, ⟨?_, ?_, ?_, ?_⟩⟩, _, rfl⟩
  · unfold TokenInv; decide +kernel
  · unfold HoldingTokenInv; decide +kernel
  · intro i r h; rw [empty i] at h; cases h
  · intro i j r h; rw [empty i] at h; cases h
  · intro p k
    simp [SlotInv, free p k, unnamed p]
  · decide +kernel
  · decide +kernel
  · decide +kernel
  · decide +kernel
  · intro ch
    have unbound : (State.reset.chan ch).state = .unbound ∧ (State.reset.chan ch).key = 0#32 := by
      revert ch; decide +kernel
    simp [unbound.1, unbound.2]
  · refine ⟨by decide +kernel, by decide +kernel, fun _ => ⟨?_, by decide +kernel⟩, ?_, ?_, ?_⟩
    · intro side h; cases h
    · intro _ _ side floor h; rw [blank side] at h; cases h
    · intro req attempt h; cases h
    · intro req side h; rcases h with h | h <;> cases h
  · decide +kernel
  · decide +kernel
  · decide +kernel
  · decide +kernel
  · decide +kernel
  · exact fun _ => empty
  · exact fun _ => by decide +kernel
  · exact fun _ => by decide +kernel
  · intro p
    refine ⟨?_, ?_, ?_, ?_, ?_⟩
    · revert p; decide +kernel
    · revert p; decide +kernel
    · revert p; decide +kernel
    · revert p; decide +kernel
    · intro tag c h
      rw [unfilled p] at h; cases h
  · apply configInv_of_idle <;> try rfl
    · exact ⟨rfl, by decide +kernel⟩
    · intro side; cases side <;> rfl
  · intro i r h; rw [empty i] at h; cases h
  · intro i r h; rw [empty i] at h; cases h
  · intro i r h; rw [empty i] at h; cases h
  · intro ch
    have at_ : (State.reset.chan ch).guard = (State.reset.cfg.effective.chan ch).guard ∧
        (State.reset.chan ch).guard ≤ 10000#16 ∧ (State.reset.chan ch).state = .unbound := by
      revert ch; decide +kernel
    refine ⟨at_.1, at_.2.1, ?_⟩
    intro deadline h
    rw [at_.2.2] at h; cases h

end Sys2Proof.Machine.Test
end

section
/-! The refusals of ACQUIRE (R19, R20). The searches of the table and of the slots come first, then each
check as an equation of the function that makes it, then the refusals in their order. -/

namespace Sys2Proof.Machine

/-! ### What the searches find -/

theorem State.lowestFreeSlot_eq_none_iff (s : State) (p : Port) :
    s.lowestFreeSlot p = none ↔ ∀ k, s.slot p k ≠ .free := by
  simp [State.lowestFreeSlot]

theorem State.lowestFreeIndex_eq_none_iff (s : State) :
    s.lowestFreeIndex = none ↔ ∀ j, (s.record j).isSome = true := by
  simp [State.lowestFreeIndex, Option.isSome_iff_ne_none]

/-- The index of a key is the index of a record. -/
theorem State.exists_record_of_findRecord {s : State} {key : Word} {i : RecIx}
    (h : s.findRecord key = some i) : ∃ r, s.record i = some r := by
  have found := List.find?_some h
  obtain ⟨r, hr, -⟩ := (Option.any_eq_true _ _).mp found
  exact ⟨r, hr⟩

theorem State.lookRecord_eq_none_iff (s : State) (key : Word) :
    s.lookRecord key = none ↔ s.findRecord key = none := by
  cases h : s.findRecord key with
  | none => simp [State.lookRecord, h]
  | some i =>
    obtain ⟨r, hr⟩ := State.exists_record_of_findRecord h
    simp [State.lookRecord, h, hr]

/-- The record that check 4 looks at is the one the look-up finds. -/
theorem State.findRecord_bind_record (s : State) (key : Word) :
    (s.findRecord key).bind s.record = (s.lookRecord key).map Prod.snd := by
  cases h : s.findRecord key with
  | none => simp [State.lookRecord, h]
  | some i => simp [State.lookRecord, h, Function.comp_def]

/-- A key has no place only when it has no record and the table is full (R8). -/
theorem State.placeOf_eq_none_iff (s : State) (key : Word) :
    s.placeOf key = none ↔ s.lookRecord key = none ∧ ∀ j, (s.record j).isSome = true := by
  rw [State.lookRecord_eq_none_iff, ← State.lowestFreeIndex_eq_none_iff]
  cases h : s.findRecord key with
  | none => simp [State.placeOf, h]
  | some i =>
    obtain ⟨r, hr⟩ := State.exists_record_of_findRecord h
    simp [State.placeOf, h, hr]

/-! ### Checks 1 to 3 -/

theorem modeOfCode_eq_none_iff (b : Byte) : modeOfCode b = none ↔ b ≠ 1#8 ∧ b ≠ 2#8 := by
  unfold modeOfCode
  split
  · simp
  · simp
  · next not1 not2 => exact iff_of_true rfl ⟨not1, not2⟩

theorem leaseInRange_eq_true_iff (set : PortSettings) (lease : Half) :
    leaseInRange set lease = true ↔ ¬(lease < 10#16 ∨ set.maxLease < lease) := by
  simp [leaseInRange]

theorem waitInRange_eq_true_iff (set : PortSettings) (wait : Half) :
    waitInRange set wait = true ↔ ¬set.maxWait < wait := by
  simp [waitInRange]

/-- A parameter of ACQUIRE is out of range: check 2 of R19. -/
def PortSettings.outOfRange (set : PortSettings) (key : Word) (mode : Byte)
    (lease wait : Half) : Prop :=
  key = 0#32 ∨ (mode ≠ 1#8 ∧ mode ≠ 2#8) ∨ lease < 10#16 ∨ set.maxLease < lease ∨ set.maxWait < wait

variable {set : PortSettings} {key : Word} {mode : Byte} {lease wait : Half}

theorem acquireParams_of_noRight (right : set.rights.acquire = false) :
    acquireParams set key mode lease wait = .error .noRight := by
  simp [acquireParams, right]

theorem acquireParams_of_outOfRange (right : set.rights.acquire = true)
    (bad : set.outOfRange key mode lease wait) :
    acquireParams set key mode lease wait = .error .badParam := by
  cases hm : modeOfCode mode with
  | none => simp [acquireParams, right, hm]
  | some m =>
    have coded : ¬(mode ≠ 1#8 ∧ mode ≠ 2#8) := by simp [← modeOfCode_eq_none_iff, hm]
    have failed : key = 0#32 ∨ !leaseInRange set lease ∨ !waitInRange set wait := by
      simp only [Bool.not_eq_true', ← Bool.not_eq_true, leaseInRange_eq_true_iff,
        waitInRange_eq_true_iff, not_not]
      obtain zero | code | short | long | late := bad
      · exact .inl zero
      · exact absurd code coded
      · exact .inr (.inl (.inl short))
      · exact .inr (.inl (.inr long))
      · exact .inr (.inr late)
    simp only [acquireParams, right, hm, if_pos failed, Bool.not_true, Bool.false_eq_true, if_false]

/-- With the right and every parameter in range, the class alone decides. -/
theorem acquireParams_of_inRange (right : set.rights.acquire = true)
    (good : ¬set.outOfRange key mode lease wait) :
    ∃ m, acquireParams set key mode lease wait =
      if classAllowed set.classMask key then .ok m else .error .classDenied := by
  simp only [PortSettings.outOfRange, not_or] at good
  obtain ⟨nonzero, coded, not_short, not_long, not_late⟩ := good
  obtain ⟨m, hm⟩ := Option.ne_none_iff_exists'.mp (mt (modeOfCode_eq_none_iff mode).mp coded)
  have lease_ok : leaseInRange set lease = true :=
    (leaseInRange_eq_true_iff set lease).mpr (not_or.mpr ⟨not_short, not_long⟩)
  have wait_ok : waitInRange set wait = true := (waitInRange_eq_true_iff set wait).mpr not_late
  refine ⟨m, ?_⟩
  cases hc : classAllowed set.classMask key <;>
    simp [acquireParams, right, hm, nonzero, lease_ok, wait_ok, hc]

/-! ### Checks 4 to 7 -/

section
variable {s : State} {p : Port}

/-- Check 4 on the record of the key. -/
theorem State.duplicate_of_lookRecord {i : RecIx} {r : Record} (h : s.lookRecord key = some (i, r)) :
    s.duplicate p key = if (r.holder p).isSome then some .alreadyHeld
      else if (r.waiter p).isSome then some .alreadyWaiting else none := by
  simp [State.duplicate, State.findRecord_bind_record, h]

/-- A port without a claim on the key passes check 4. -/
theorem State.duplicate_eq_none
    (h : ∀ i r, s.lookRecord key = some (i, r) → r.holder p = none ∧ r.waiter p = none) :
    s.duplicate p key = none := by
  cases hl : s.lookRecord key with
  | none => simp [State.duplicate, State.findRecord_bind_record, hl]
  | some found =>
    obtain ⟨i, r⟩ := found
    obtain ⟨no_holding, no_entry⟩ := h i r hl
    simp [State.duplicate_of_lookRecord hl, no_holding, no_entry]

theorem State.acquirePlace_of_duplicate {st : Status} (h : s.duplicate p key = some st) :
    s.acquirePlace p key = .error st := by
  simp [State.acquirePlace, h]

theorem State.acquirePlace_of_noSlot (h4 : s.duplicate p key = none)
    (h5 : s.lowestFreeSlot p = none) : s.acquirePlace p key = .error .slotsExhausted := by
  simp [State.acquirePlace, h4, h5]

theorem State.acquirePlace_of_noPlace (h4 : s.duplicate p key = none)
    (h5 : s.lowestFreeSlot p ≠ none) (h6 : s.placeOf key = none) :
    s.acquirePlace p key = .error .tableFull := by
  obtain ⟨k, hk⟩ := Option.ne_none_iff_exists'.mp h5
  simp [State.acquirePlace, h4, hk, h6]

/-- With checks 4 to 6 passed, the state of the token unit alone decides. -/
theorem State.acquirePlace_of_place (h4 : s.duplicate p key = none)
    (h5 : s.lowestFreeSlot p ≠ none) (h6 : s.placeOf key ≠ none) :
    ∃ pl, s.acquirePlace p key =
      if s.tok.state = .storeFault then .error .storeFault
      else if s.tok.state = .tokensSpent then .error .tokensSpent
      else .ok pl := by
  obtain ⟨k, hk⟩ := Option.ne_none_iff_exists'.mp h5
  obtain ⟨⟨i, r⟩, hp⟩ := Option.ne_none_iff_exists'.mp h6
  refine ⟨⟨i, r, k⟩, ?_⟩
  cases h7 : s.tok.state <;> simp [State.acquirePlace, h4, hk, hp, h7]

/-! ### A failed check is the reply alone -/

variable {tag : BitVec 4}

theorem exec_acquire_of_params_error {st : Status}
    (taken : s.takenTag p (.acquire p key mode lease wait) = some tag)
    (attached : (s.port p).attached = true)
    (h : acquireParams (s.settings p) key mode lease wait = .error st) :
    exec (.acquire p key mode lease wait) s =
      .next (s.replyOnly p tag (.acquire p key mode lease wait) st .none) := by
  have h' : acquireParams (State.settings { s with served := p } p) key mode lease wait = .error st := h
  rw [exec_acquire]
  exact State.runCommand_attached_answer taken attached (by simp only [acquireBody, h']; rfl)

theorem exec_acquire_of_place_error {st : Status} {m : Mode}
    (taken : s.takenTag p (.acquire p key mode lease wait) = some tag)
    (attached : (s.port p).attached = true)
    (passed : acquireParams (s.settings p) key mode lease wait = .ok m)
    (h : s.acquirePlace p key = .error st) :
    exec (.acquire p key mode lease wait) s =
      .next (s.replyOnly p tag (.acquire p key mode lease wait) st .none) := by
  have passed' : acquireParams (State.settings { s with served := p } p) key mode lease wait = .ok m :=
    passed
  have h' : State.acquirePlace { s with served := p } p key = .error st := h
  rw [exec_acquire]
  exact State.runCommand_attached_answer taken attached (by simp only [acquireBody, passed', h']; rfl)

end

/-- Settles O10: each check's equation, cited in the order of R19 and R20 under the outcome of the checks
before it. -/
theorem acquireRefused : Obligations.AcquireRefused := by
  unfold Obligations.AcquireRefused
  intro s p tag key mode lease wait c refused set bad taken attached
  have by_params : ∀ {st}, acquireParams set key mode lease wait = .error st → refused st :=
    exec_acquire_of_params_error taken attached
  refine ⟨fun right => by_params (acquireParams_of_noRight right),
    fun right out => by_params (acquireParams_of_outOfRange right out), ?_, ?_⟩
  · intro right good denied
    obtain ⟨m, hm⟩ := acquireParams_of_inRange right good
    have class_out : classAllowed set.classMask key = false := denied
    exact by_params (by simp [hm, class_out])
  · intro right good allowed
    obtain ⟨m, hm⟩ := acquireParams_of_inRange right good
    have class_in : classAllowed set.classMask key = true := allowed
    have by_place : ∀ {st}, s.acquirePlace p key = .error st → refused st :=
      exec_acquire_of_place_error (m := m) taken attached (hm.trans (if_pos class_in))
    refine ⟨?held, ?waiting, fun no_claim => ?fresh⟩
    case held =>
      intro i r found holds
      exact by_place (State.acquirePlace_of_duplicate
        (by simp [State.duplicate_of_lookRecord found, holds]))
    case waiting =>
      intro i r found not_holder waits
      exact by_place (State.acquirePlace_of_duplicate
        (by simp [State.duplicate_of_lookRecord found, not_holder, waits]))
    case fresh =>
      have h4 : s.duplicate p key = none := State.duplicate_eq_none no_claim
      refine ⟨fun no_slot => by_place (State.acquirePlace_of_noSlot h4
        ((s.lowestFreeSlot_eq_none_iff p).mpr no_slot)), fun ⟨k, free⟩ => ?_⟩
      have h5 : s.lowestFreeSlot p ≠ none :=
        fun none_free => (s.lowestFreeSlot_eq_none_iff p).mp none_free k free
      refine ⟨fun no_record full => by_place (State.acquirePlace_of_noPlace h4 h5
        ((s.placeOf_eq_none_iff key).mpr ⟨no_record, full⟩)), fun room => ?_⟩
      have h6 : s.placeOf key ≠ none := by
        intro no_place
        obtain ⟨no_record, full⟩ := (s.placeOf_eq_none_iff key).mp no_place
        obtain has_record | ⟨j, empty⟩ := room
        · exact has_record no_record
        · simpa [empty] using full j
      obtain ⟨pl, hpl⟩ := State.acquirePlace_of_place h4 h5 h6
      exact ⟨fun h7 => by_place (by simp [hpl, h7]), fun h7 => by_place (by simp [hpl, h7])⟩

end Sys2Proof.Machine
end

section
/-! RENEW and VERIFY (R37, R38, R70). Each outcome is first an equation of the body of the command, by
the checks in their order; the search for the holder of a token comes before the bodies that use it. -/

namespace Sys2Proof.Machine

variable {s : State} {p : Port} {key token : Word} {lease : Half}

/-! ### The body of RENEW -/

theorem leaseInRange_iff_bounds (set : PortSettings) (lease : Half) :
    leaseInRange set lease = true ↔ 10#16 ≤ lease ∧ lease ≤ set.maxLease :=
  (leaseInRange_eq_true_iff set lease).trans (by simp)

theorem renewBody_of_outOfRange (bad : ¬(10#16 ≤ lease ∧ lease ≤ (s.settings p).maxLease)) :
    renewBody p key token lease s = s.answer .badParam := by
  have failed : leaseInRange (s.settings p) lease = false :=
    Bool.eq_false_iff.mpr (mt (leaseInRange_iff_bounds _ _).mp bad)
  simp [renewBody, failed]

section
variable (good : 10#16 ≤ lease ∧ lease ≤ (s.settings p).maxLease)
include good

theorem renewBody_of_noHolding (none_held : s.holdingOf p key = none) :
    renewBody p key token lease s = s.answer .notHeld := by
  simp [renewBody, (leaseInRange_iff_bounds _ _).mpr good, none_held]

variable {i : RecIx} {r : Record} {h : Holding} (held : s.holdingOf p key = some (i, r, h))
include held

theorem renewBody_of_wrongToken (wrong : token = 0#32 ∨ token ≠ h.token) :
    renewBody p key token lease s = s.answer .badToken := by
  simp only [renewBody, (leaseInRange_iff_bounds _ _).mpr good, held, if_pos wrong, Bool.not_true,
    Bool.false_eq_true, if_false]

/-- With every check passed the lease moves (R38). -/
theorem renewBody_of_token (nonzero : token ≠ 0#32) (own : token = h.token) :
    renewBody p key token lease s =
      ⟨s.moveLease i r p h (s.now + lease.setWidth 32), .ok,
        .deadline (s.now + lease.setWidth 32)⟩ := by
  have right : ¬(token = 0#32 ∨ token ≠ h.token) := not_or.mpr ⟨nonzero, not_not.mpr own⟩
  simp only [renewBody, (leaseInRange_iff_bounds _ _).mpr good, held, if_neg right, Bool.not_true,
    Bool.false_eq_true, if_false]

end

/-! ### The holder of a token -/

/-- The search finds nothing exactly when no holding of the record carries the token. -/
theorem Record.holderOfToken_eq_none_iff (r : Record) (token : Word) :
    r.holderOfToken token = none ↔ ∀ q h, r.holder q = some h → h.token ≠ token := by
  simp only [Record.holderOfToken, List.findSome?_eq_none_iff, List.mem_finRange, true_implies]
  refine forall_congr' fun q => ?_
  cases r.holder q <;> simp

/-- What the search finds is a holding of the record, and it carries the token. -/
theorem Record.holder_of_holderOfToken {r : Record} {q : Port} {h : Holding}
    (found : r.holderOfToken token = some (q, h)) : r.holder q = some h ∧ h.token = token := by
  obtain ⟨q', -, hq'⟩ := List.exists_of_findSome?_eq_some found
  split at hq'
  · next h' holds =>
    split at hq'
    · next carries =>
      cases hq'
      exact ⟨holds, carries⟩
    · cases hq'
  · cases hq'

/-- The only holding that carries the token is the one that the search finds. -/
theorem Record.holderOfToken_of_unique {r : Record} {q : Port} {h : Holding}
    (holds : r.holder q = some h) (carries : h.token = token)
    (alone : ∀ q' h', q' ≠ q → r.holder q' = some h' → h'.token ≠ token) :
    r.holderOfToken token = some (q, h) := by
  cases found : r.holderOfToken token with
  | none => exact absurd carries ((r.holderOfToken_eq_none_iff token).mp found q h holds)
  | some x =>
    obtain ⟨q', h'⟩ := x
    obtain ⟨holds', carries'⟩ := Record.holder_of_holderOfToken found
    obtain rfl : q' = q := by_contra fun other => alone q' h' other holds' carries'
    rw [Option.some_inj.mp (holds'.symm.trans holds)]

/-! ### The body of VERIFY -/

theorem verifyBody_of_zero (zero : key = 0#32 ∨ token = 0#32) :
    verifyBody key token s = s.answer .badParam :=
  if_pos zero

section
variable (key_nonzero : key ≠ 0#32) (token_nonzero : token ≠ 0#32)
include key_nonzero token_nonzero

theorem verifyBody_of_holder {i : RecIx} {r : Record} {q : Port} {h : Holding}
    (look : s.lookRecord key = some (i, r)) (found : r.holderOfToken token = some (q, h)) :
    verifyBody key token s = ⟨s, .valid, .holder q h.mode⟩ := by
  simp [verifyBody, key_nonzero, token_nonzero, look, found]

/-- A token that no holding of the key carries is told apart by G alone. -/
theorem verifyBody_of_noHolder
    (stray : ∀ i r q h, s.lookRecord key = some (i, r) → r.holder q = some h → h.token ≠ token) :
    verifyBody key token s =
      if s.tok.G ≤ token then s.answer .future else s.answer .stale := by
  have not_found : ((s.lookRecord key).bind fun x => x.2.holderOfToken token) = none := by
    refine Option.bind_eq_none_iff.mpr fun x look => ?_
    exact (x.2.holderOfToken_eq_none_iff token).mpr fun q h => stray x.1 x.2 q h look
  simp only [verifyBody, not_or.mpr ⟨key_nonzero, token_nonzero⟩, not_found, if_false]

end

/-! ### The rows: a taken command of an ATTACHED port whose body has no effect -/

section
variable {tag : BitVec 4} {st : Status}

theorem exec_renew_of_answer (taken : s.takenTag p (.renew p key token lease) = some tag)
    (attached : (s.port p).attached = true)
    (answered : renewBody p key token lease { s with served := p } =
      State.answer { s with served := p } st) :
    exec (.renew p key token lease) s =
      .next (s.replyOnly p tag (.renew p key token lease) st .none) :=
  (exec_renew p key token lease s).trans (State.runCommand_attached_answer taken attached answered)

theorem exec_verify_of_body {f : Fields} (taken : s.takenTag p (.verify p key token) = some tag)
    (attached : (s.port p).attached = true)
    (answered : verifyBody key token { s with served := p } = ⟨{ s with served := p }, st, f⟩) :
    exec (.verify p key token) s = .next (s.replyOnly p tag (.verify p key token) st f) :=
  (exec_verify p key token s).trans (State.runCommand_attached_answer taken attached answered)

end

/-- Settles O18: each command is its body and its reply, and the body's equations, cited in the order of the
checks, say which outcome it is. -/
theorem renewAndVerifyOutcome : Obligations.RenewAndVerifyOutcome := by
  unfold Obligations.RenewAndVerifyOutcome
  intro s p tag key token
  refine ⟨fun lease => ?renew, ?verify⟩
  case renew =>
    intro c refused inRange deadline taken
    refine ⟨fun detached => (exec_renew p key token lease s).trans
      (State.runCommand_detached taken detached), ?_, ?_, ?_⟩
    · intro attached bad
      exact exec_renew_of_answer taken attached (renewBody_of_outOfRange bad)
    · intro attached good none_held
      exact exec_renew_of_answer taken attached (renewBody_of_noHolding good none_held)
    · intro i r h attached good held
      refine ⟨fun wrong => exec_renew_of_answer taken attached
        (renewBody_of_wrongToken good held wrong), fun nonzero own => ?_⟩
      rw [exec_renew, State.runCommand_attached taken attached,
        renewBody_of_token (s := { s with served := p }) good held nonzero own]
      rfl
  case verify =>
    intro c reply taken
    refine ⟨fun detached => (exec_verify p key token s).trans
      (State.runCommand_detached taken detached), ?_, ?_⟩
    · intro attached zero
      exact exec_verify_of_body taken attached (verifyBody_of_zero zero)
    · intro attached key_nonzero token_nonzero
      refine ⟨fun i r q h look holds carries alone => ?_, fun stray => ?_⟩
      · have found := Record.holderOfToken_of_unique holds carries alone
        exact exec_verify_of_body taken attached
          (verifyBody_of_holder key_nonzero token_nonzero look found)
      · have by_G := verifyBody_of_noHolder (s := { s with served := p })
          key_nonzero token_nonzero stray
        exact ⟨fun reached => exec_verify_of_body taken attached (by_G.trans (if_pos reached)),
          fun below => exec_verify_of_body taken attached
            (by_G.trans (if_neg (BitVec.not_le.mpr below)))⟩

end Sys2Proof.Machine
end

section
/-! What BOOT selects (R68, R79, R163, R164, R183). The classes of the two sides decide the floor and the
image; each unit then follows from what was decided. -/

namespace Sys2Proof.Machine

/-! ### The floor and the token unit -/

section
variable {a b : ReserveClass} {fa fb floor : Word} {active : Option Side}

theorem selectFloor_of_validA (invalid : b = .blank ∨ b = .corrupt) :
    selectFloor (.valid fa) b = some (fa, some .a) := by
  obtain rfl | rfl := invalid <;> rfl

theorem selectFloor_of_validB (invalid : a = .blank ∨ a = .corrupt) :
    selectFloor a (.valid fb) = some (fb, some .b) := by
  obtain rfl | rfl := invalid <;> rfl

theorem selectFloor_of_blankAndNoneValid
    (noneValid : (a = .blank ∧ (b = .blank ∨ b = .corrupt)) ∨ (a = .corrupt ∧ b = .blank)) :
    selectFloor a b = some (1#32, none) := by
  obtain ⟨rfl, rfl | rfl⟩ | ⟨rfl, rfl⟩ := noneValid <;> rfl

/-- A selected floor is F, G and the boot floor, with no demand recorded (R68). -/
theorem selectTokens_of_floor (chosen : selectFloor a b = some (floor, active)) :
    selectTokens a b =
      ⟨floor, floor, if floor = maxWord then .tokensSpent else .advancing, active, false, floor⟩ := by
  simp only [selectTokens, chosen]

end

/-! ### The image and the configuration unit -/

section
variable {a b : CopyClass} {qa qb seq : Half} {ia ib img : Image} {defaulted : Bool}

theorem selectImage_of_validA (invalid : b = .blank ∨ b = .corrupt) :
    selectImage (.valid qa ia) b = (ia, qa, false) := by
  obtain rfl | rfl := invalid <;> rfl

theorem selectImage_of_validB (invalid : a = .blank ∨ a = .corrupt) :
    selectImage a (.valid qb ib) = (ib, qb, false) := by
  obtain rfl | rfl := invalid <;> rfl

/-- CONFIG_DEFAULTED is set where a corrupt copy is why the defaults are in force (R163). -/
theorem selectImage_of_corruptAndNoneValid
    (noneValid : (a = .blank ∧ b = .corrupt) ∨ (a = .corrupt ∧ (b = .blank ∨ b = .corrupt))) :
    selectImage a b = (Image.factoryDefault, 0#16, true) := by
  obtain ⟨rfl, rfl⟩ | ⟨rfl, rfl | rfl⟩ := noneValid <;> rfl

theorem CopyClass.isFrozen_of_invalid (invalid : a = .blank ∨ a = .corrupt) : a.isFrozen = false := by
  obtain rfl | rfl := invalid <;> rfl

theorem CopyClass.seq?_of_invalid (invalid : a = .blank ∨ a = .corrupt) : a.seq? = none := by
  obtain rfl | rfl := invalid <;> rfl

/-- The selected image is in force under its sequence; the frozen store and the records are the copies'
own (R163, R165). -/
theorem selectConfig_of_image (chosen : selectImage a b = (img, seq, defaulted)) :
    selectConfig a b = {
      effective := img, defaulted := defaulted, staging := .idle, owner := none, image := none
      target := none, lastResult := .none, effectiveSeq := seq, storedSeq := seq
      storeFrozen := a.isFrozen || b.isFrozen, recordA := a.seq?, recordB := b.seq? } := by
  simp only [selectConfig, chosen, ConfigUnit.reset]

end

/-! ### The factory defaults -/

theorem Image.port_factoryDefault (p : Port) : Image.factoryDefault.port p =
    ⟨⟨true, true, true, true⟩, 0xFFFF#16, 60000#16, 60000#16⟩ := by
  simp [Image.port, Image.factoryDefault]

theorem Image.chan_factoryDefault (ch : Channel) : Image.factoryDefault.chan ch = ⟨0#32, 0#16⟩ := by
  simp [Image.chan, Image.factoryDefault]

/-! ### The factory row -/

theorem ne_blankRow_iff (row : Row) : row ≠ blankRow ↔ ∃ i : Fin 32, row[i] ≠ 0xFF#8 := by
  rw [← not_forall, not_iff_not]
  constructor
  · rintro rfl i
    simp [blankRow]
  · intro same
    ext1 i lt
    simpa [blankRow] using same ⟨i, lt⟩

theorem rowCrcMatches_iff (row : Row) :
    rowCrcMatches row = true ↔ crc16 (row.toList.take 30) = rowHalf row 30 := beq_iff_eq

theorem rowWord_eq_append (row : Row) (k : Nat) :
    rowWord row k = rowHalf row k ++ rowHalf row (k + 2) :=
  BitVec.append_assoc

theorem readFactory_of_valid {row : Row} (written : row ≠ blankRow) (intact : rowCrcMatches row) :
    readFactory row =
      some ⟨rowHalf row 0, rowHalf row 2, rowByte row 4, rowWord row 5, rowHalf row 9⟩ :=
  if_pos ⟨written, intact⟩

theorem readFactory_of_invalid {row : Row} (invalid : ¬(row ≠ blankRow ∧ rowCrcMatches row)) :
    readFactory row = none :=
  if_neg invalid

/-- Settles O47: the token unit and the configuration unit follow from the floor and the image that the classes
of the two sides select; a factory row is read where some byte of it is not FFh and its CRC matches. -/
theorem startUpSelection : Obligations.StartUpSelection := by
  unfold Obligations.StartUpSelection
  intro selected loaded defaults
  refine ⟨?twoFloors, ?floorA, ?floorB, ?noFloor, rfl, ?twoImages, ?imageA, ?imageB, rfl, ?defaulted,
    ⟨rfl, Image.port_factoryDefault, Image.chan_factoryDefault⟩, fun _ _ => rfl, ?factory⟩
  case twoFloors =>
    intro fa fb
    split
    · next lower => exact selectTokens_of_floor (congrArg some (if_pos lower))
    · next higher => exact selectTokens_of_floor (congrArg some (if_neg higher))
  case floorA => exact fun _ _ invalid => selectTokens_of_floor (selectFloor_of_validA invalid)
  case floorB => exact fun _ _ invalid => selectTokens_of_floor (selectFloor_of_validB invalid)
  case noFloor => exact fun _ _ noneValid => selectTokens_of_floor (selectFloor_of_blankAndNoneValid noneValid)
  case twoImages =>
    intro qa ia qb ib
    split
    · next lower => exact selectConfig_of_image (if_pos lower)
    · next higher => exact selectConfig_of_image (if_neg higher)
  case imageA =>
    intro qa ia b invalid
    rw [selectConfig_of_image (selectImage_of_validA invalid), b.isFrozen_of_invalid invalid,
      b.seq?_of_invalid invalid, Bool.or_false]
    rfl
  case imageB =>
    intro a qb ib invalid
    rw [selectConfig_of_image (selectImage_of_validB invalid), a.isFrozen_of_invalid invalid,
      a.seq?_of_invalid invalid, Bool.false_or]
    rfl
  case defaulted =>
    intro a b noneValid
    rw [selectConfig_of_image (selectImage_of_corruptAndNoneValid noneValid)]
    obtain ⟨rfl, rfl⟩ | ⟨rfl, rfl | rfl⟩ := noneValid <;> rfl
  case factory =>
    intro row byte half valid
    have valid_iff : valid ↔ row ≠ blankRow ∧ rowCrcMatches row :=
      and_congr (ne_blankRow_iff row).symm (rowCrcMatches_iff row).symm
    refine ⟨fun ok => ?_, fun bad => readFactory_of_invalid (mt valid_iff.mpr bad)⟩
    obtain ⟨written, intact⟩ := valid_iff.mp ok
    rw [readFactory_of_valid written intact, rowWord_eq_append]
    rfl

end Sys2Proof.Machine
end

section
/-! The two common ends of a host command that makes the session check (R89): DETACHED, or a body without
effect. -/

namespace Sys2Proof.Machine

variable {s : State} {p : Port} {tag : BitVec 4} {c : Instr} {body : State → Answer}

theorem exec_of_detached
    (row : exec c s = s.runCommand p c fun s => s.whenAttached p body)
    (taken : s.takenTag p c = some tag) (detached : (s.port p).attached = false) :
    exec c s = .next (s.replyOnly p tag c .detached .none) :=
  row.trans (State.runCommand_detached taken detached)

theorem exec_of_answer {st : Status} {f : Fields}
    (row : exec c s = s.runCommand p c fun s => s.whenAttached p body)
    (taken : s.takenTag p c = some tag) (attached : (s.port p).attached = true)
    (answered : body { s with served := p } = ⟨{ s with served := p }, st, f⟩) :
    exec c s = .next (s.replyOnly p tag c st f) :=
  row.trans (State.runCommand_attached_answer taken attached answered)

end Sys2Proof.Machine
end

section
/-! Sessions (R90 to R93, R97, R98). HELLO, BYE and EJECT each end in one change of a port unit, under the
reply; the body of each command is first an equation by its cases. -/

namespace Sys2Proof.Machine

variable {s : State} {p : Port}

/-! ### What a teardown leaves to the attach -/

@[simp] theorem State.tearDown_sessionCounter (s : State) (p : Port) :
    (s.tearDown p).sessionCounter = s.sessionCounter :=
  (s.tearDown_frame p).sessionCounter

@[simp] theorem State.tearDown_bootFloor (s : State) (p : Port) :
    (s.tearDown p).tok.bootFloor = s.tok.bootFloor :=
  (s.tearDown_frame p).bootFloor

/-! ### A change of a port unit, then the reply -/

/-- The reply joins the change of its own port's unit. -/
theorem State.modPort_placeReply (s : State) (p : Port) (f : PortUnit → PortUnit) (tag : BitVec 4)
    (c : Instr) (st : Status) (fields : Fields) :
    (s.modPort p f).placeReply p tag c st fields =
      s.setPort p { f (s.port p) with slot := .filled ⟨tag, codeOf c, st, false, fields⟩ } := by
  rw [State.placeReply, State.modPort, State.port_modPort, if_pos rfl, State.modPort,
    State.setPort_setPort]

@[simp] theorem State.attach_tok (s : State) (p : Port) : (s.attach p).tok = s.tok := rfl

theorem State.attach_session (s : State) (p : Port) :
    ((s.attach p).port p).session = nextSession s.sessionCounter := by
  rw [State.attach, State.port_modPort, if_pos rfl]

/-- The five steps of R90 and the reply of HELLO are one change of the port's unit. -/
theorem State.attach_placeReply (t : State) (p : Port) (tag : BitVec 4) (fields : Fields) :
    (t.attach p).placeReply p tag (.hello p) .ok fields =
      State.setPort { t with sessionCounter := nextSession t.sessionCounter } p
        { t.port p with
          session := nextSession t.sessionCounter, seq := 0#8, lastTag := none, sessionLost := false,
          attached := true, slot := .filled ⟨tag, 0x10#8, .ok, false, fields⟩ } :=
  State.modPort_placeReply _ p _ tag (.hello p) .ok fields

/-! ### The body of HELLO -/

theorem helloBody_of_detached (detached : (s.port p).attached = false) :
    helloBody p s =
      ⟨s.attach p, .ok, .session (nextSession s.sessionCounter) s.tok.bootFloor⟩ := by
  simp [helloBody, detached, State.attach_session]

theorem helloBody_of_attached (attached : (s.port p).attached = true) :
    helloBody p s =
      ⟨(s.tearDown p).attach p, .ok, .session (nextSession s.sessionCounter) s.tok.bootFloor⟩ := by
  simp [helloBody, attached, State.attach_session]

/-- Settles O7: HELLO is the attach of the state as it stands or of its teardown, BYE the detachment of its
teardown, and the reply joins the change of the port. -/
theorem helloAndByeOutcome : Obligations.HelloAndByeOutcome := by
  unfold Obligations.HelloAndByeOutcome
  intro s p tag n attaches
  refine ⟨fun taken detached => ?fresh, fun taken attached => ?again, fun taken attached => ?bye⟩
  case fresh =>
    show exec (.hello p) s = _
    rw [exec_hello, State.runCommand_taken taken,
      helloBody_of_detached (s := { s with served := p }) detached, State.attach_placeReply]
    rfl
  case again =>
    show exec (.hello p) s = _
    rw [exec_hello, State.runCommand_taken taken,
      helloBody_of_attached (s := { s with served := p }) attached, State.attach_placeReply,
      State.tearDown_sessionCounter]
    rfl
  case bye =>
    rw [exec_bye, State.runCommand_attached taken attached]
    exact congrArg _ (State.modPort_placeReply _ p _ tag (.bye p) .ok .none)

/-! ### The target of EJECT -/

theorem portOfCode_eq_none_iff (b : Byte) : portOfCode b = none ↔ 4 ≤ b.toNat := by
  simp [portOfCode]

theorem portOfCode_of_toNat {b : Byte} {q : Port} (h : b.toNat = q.val) : portOfCode b = some q := by
  have below : b.toNat < 4 := h ▸ q.isLt
  rw [portOfCode, dif_pos below]
  exact congrArg some (Fin.ext h)

/-! ### The body of EJECT -/

variable {target : Byte}

theorem ejectBody_of_noRight (right : (s.settings p).rights.revoke = false) :
    ejectBody p target s = s.answer .noRight := by
  simp [ejectBody, right]

section
variable (right : (s.settings p).rights.revoke = true)
include right

theorem ejectBody_of_badTarget (bad : 4 ≤ target.toNat ∨ target.toNat = p.val) :
    ejectBody p target s = s.answer .badParam := by
  obtain beyond | self := bad
  · simp [ejectBody, right, (portOfCode_eq_none_iff target).mpr beyond]
  · simp [ejectBody, right, portOfCode_of_toNat self]

variable {q : Port} (names : target.toNat = q.val) (other : q ≠ p)
include names other

theorem ejectBody_of_detached (detached : (s.port q).attached = false) :
    ejectBody p target s = s.answer .notAttached := by
  simp [ejectBody, right, portOfCode_of_toNat names, other, detached]

theorem ejectBody_of_attached (attached : (s.port q).attached = true) :
    ejectBody p target s =
      ⟨(s.tearDown q).modPort q fun u => { u.detach with sessionLost := true }, .ok, .none⟩ := by
  simp [ejectBody, right, portOfCode_of_toNat names, other, attached]

end

/-- Settles O8: EJECT of an ATTACHED port is its body and its reply, and the body's equations, cited in the
order of R97's checks, say which outcome it is. -/
theorem ejectOutcome : Obligations.EjectOutcome := by
  unfold Obligations.EjectOutcome
  intro s p tag target taken attached right refused
  have by_body : ∀ {st}, ejectBody p target { s with served := p } =
      State.answer { s with served := p } st → refused st :=
    exec_of_answer (exec_eject p target s) taken attached
  refine ⟨fun no_right => by_body (ejectBody_of_noRight no_right),
    fun has_right bad => by_body (ejectBody_of_badTarget has_right bad),
    fun q names other has_right => ⟨fun detached =>
      by_body (ejectBody_of_detached has_right names other detached), fun target_attached => ?_⟩⟩
  rw [exec_eject, State.runCommand_attached taken attached,
    ejectBody_of_attached (s := { s with served := p }) has_right names other target_attached]
  rfl

end Sys2Proof.Machine
end

section
/-! MYSLOT, PEEK_NOTICE and ACK_NOTICE (R106, R113 to R115). The bodies come first as equations by their
cases; for ACK_NOTICE the case is whether the slot of the notice that leaves is freed. -/

namespace Sys2Proof.Machine

variable {s : State} {p : Port}

theorem mySlotBody_of_outOfRange {index : Byte} (bad : 8 ≤ index.toNat) :
    mySlotBody p index s = s.answer .badParam :=
  dif_neg (Nat.not_lt.mpr bad)

theorem mySlotBody_of_index {index : Byte} {i : SlotIx} (names : i.val = index.toNat) :
    mySlotBody p index s = ⟨s, .ok, .mySlot (s.slot p i) (s.noticesNaming p i)⟩ := by
  have below : index.toNat < 8 := names ▸ i.isLt
  obtain rfl : i = ⟨index.toNat, below⟩ := Fin.ext names
  exact dif_pos below

/-! ### The settlement of a slot -/

theorem State.noticesNaming_eq_zero_iff (s : State) (p : Port) (i : SlotIx) :
    s.noticesNaming p i = 0 ↔ ∀ m ∈ (s.port p).notices, m.slot ≠ i := by
  simp [State.noticesNaming, List.countP_eq_zero]

/-- The slot is PINNED and no notice in the queue names it: R115 frees it. -/
def State.pinReleased (s : State) (p : Port) (i : SlotIx) : Prop :=
  (∃ key token, s.slot p i = .pinned key token) ∧ ∀ m ∈ (s.port p).notices, m.slot ≠ i

theorem State.settleAcknowledged_of_released {i : SlotIx} (h : s.pinReleased p i) :
    s.settleAcknowledged p i = s.setSlot p i .free := by
  obtain ⟨⟨key, token, pinned⟩, unnamed⟩ := h
  simp only [State.settleAcknowledged, pinned, (s.noticesNaming_eq_zero_iff p i).mpr unnamed, if_true]

theorem State.settleAcknowledged_of_kept {i : SlotIx} (h : ¬s.pinReleased p i) :
    s.settleAcknowledged p i = s := by
  unfold State.settleAcknowledged
  split
  case h_1 key token pinned =>
    have named : ¬s.noticesNaming p i = 0 := fun none_names =>
      h ⟨⟨key, token, pinned⟩, (s.noticesNaming_eq_zero_iff p i).mp none_names⟩
    exact if_neg named
  all_goals rfl

/-- After the oldest notice has left, its slot is released exactly when none of the rest names it. -/
theorem State.pinReleased_setPort_iff (s : State) (p : Port) (i : SlotIx) (rest : List Notice) :
    (s.setPort p { s.port p with notices := rest }).pinReleased p i ↔
      (∃ key token, s.slot p i = .pinned key token) ∧ ∀ m ∈ rest, m.slot ≠ i := by
  simp [State.pinReleased]

/-! ### The bodies of PEEK_NOTICE and ACK_NOTICE -/

theorem peekNoticeBody_of_empty (empty : (s.port p).notices = []) :
    peekNoticeBody p s = s.answer .noNotice := by
  simp [peekNoticeBody, empty]

theorem ackNoticeBody_of_empty {seq : Byte} (empty : (s.port p).notices = []) :
    ackNoticeBody p seq s = s.answer .noNotice := by
  simp [ackNoticeBody, empty]

section
variable {n : Notice} {rest : List Notice} (queue : (s.port p).notices = n :: rest)
include queue

theorem peekNoticeBody_of_oldest :
    peekNoticeBody p s = ⟨s, .ok, .notice n (rest.length + 1)⟩ := by
  simp [peekNoticeBody, queue]

theorem ackNoticeBody_of_otherSeq {seq : Byte} (other : seq ≠ n.seq) :
    ackNoticeBody p seq s = s.answer .badSeq := by
  simp [ackNoticeBody, queue, other]

theorem ackNoticeBody_of_oldest :
    ackNoticeBody p n.seq s = ⟨s.acknowledge p n rest, .ok,
      .remaining rest.length ((s.acknowledge p n rest).slot p n.slot)⟩ := by
  simp [ackNoticeBody, queue]

theorem ackNoticeBody_of_released
    (released : (s.setPort p { s.port p with notices := rest }).pinReleased p n.slot) :
    ackNoticeBody p n.seq s =
      ⟨(s.setPort p { s.port p with notices := rest }).setSlot p n.slot .free, .ok,
        .remaining rest.length .free⟩ := by
  have settled : s.acknowledge p n rest =
      (s.setPort p { s.port p with notices := rest }).setSlot p n.slot .free :=
    State.settleAcknowledged_of_released released
  rw [ackNoticeBody_of_oldest queue, settled, State.slot_setSlot, if_pos ⟨rfl, rfl⟩]

theorem ackNoticeBody_of_kept
    (kept : ¬(s.setPort p { s.port p with notices := rest }).pinReleased p n.slot) :
    ackNoticeBody p n.seq s =
      ⟨s.setPort p { s.port p with notices := rest }, .ok, .remaining rest.length (s.slot p n.slot)⟩ := by
  have settled : s.acknowledge p n rest = s.setPort p { s.port p with notices := rest } :=
    State.settleAcknowledged_of_kept kept
  rw [ackNoticeBody_of_oldest queue, settled, State.setPort_slot]

end

/-- Settles O27: each command is its body and its reply, and the body's equations, cited in the order of the
checks, say which outcome it is. -/
theorem slotAndNoticeCommands : Obligations.SlotAndNoticeCommands := by
  unfold Obligations.SlotAndNoticeCommands
  intro s p tag
  refine ⟨?mySlot, fun seq c either => ?notices⟩
  case mySlot =>
    intro index taken reply
    have row := exec_mySlot p index s
    exact ⟨exec_of_detached row taken,
      fun attached bad => exec_of_answer row taken attached (mySlotBody_of_outOfRange bad),
      fun i attached names => exec_of_answer row taken attached (mySlotBody_of_index names)⟩
  case notices =>
    intro reply taken
    obtain rfl | rfl := either
    case inl =>
      have row := exec_peekNotice p s
      exact ⟨exec_of_detached row taken,
        fun attached empty => exec_of_answer row taken attached (peekNoticeBody_of_empty empty),
        fun n rest attached queue =>
          ⟨fun _ => exec_of_answer row taken attached (peekNoticeBody_of_oldest queue), nofun, nofun⟩⟩
    case inr =>
      have row := exec_ackNotice p seq s
      refine ⟨exec_of_detached row taken,
        fun attached empty => exec_of_answer row taken attached (ackNoticeBody_of_empty empty),
        fun n rest attached queue => ⟨nofun, fun _ other => exec_of_answer row taken attached
          (ackNoticeBody_of_otherSeq (s := { s with served := p }) queue other), fun _ own => ?oldest⟩⟩
      subst own
      intro freed t
      have released_iff := State.pinReleased_setPort_iff { s with served := p } p n.slot rest
      rw [exec_ackNotice, State.runCommand_attached taken attached]
      refine ⟨fun yes => ?_, fun no => ?_⟩
      · rw [ackNoticeBody_of_released (s := { s with served := p }) queue (released_iff.mpr yes)]
        rfl
      · rw [ackNoticeBody_of_kept (s := { s with served := p }) queue (mt released_iff.mp no)]
        rfl

end Sys2Proof.Machine
end

section
/-! LOOKUP and LIST (R124 to R126, R128). The mode of a record by its holdings (R3) and the search of LIST
come first, then the bodies as equations by their cases. -/

namespace Sys2Proof.Machine

/-! ### The mode of a record -/

theorem Record.noHolder_eq_false_iff (r : Record) :
    r.noHolder = false ↔ ∃ q, (r.holder q).isSome = true := by
  simp [Record.noHolder, Option.isSome_iff_ne_none]

theorem Record.noExclusive_eq_false_iff (r : Record) :
    r.noExclusive = false ↔ ∃ q, ∃ h ∈ r.holder q, h.mode = .exclusive := by
  simp [Record.noExclusive, Option.any_eq_true]

/-- An EXCLUSIVE holding is a holding. -/
theorem Record.noHolder_of_exclusive {r : Record} (exclusive : r.noExclusive = false) :
    r.noHolder = false := by
  obtain ⟨q, h, holds, -⟩ := r.noExclusive_eq_false_iff.mp exclusive
  exact r.noHolder_eq_false_iff.mpr ⟨q, Option.isSome_of_mem holds⟩

/-- The mode follows from the holdings alone, EXCLUSIVE before SHARED (R3). -/
theorem Record.mode_eq (r : Record) [Decidable (∃ q, ∃ h ∈ r.holder q, h.mode = .exclusive)]
    [Decidable (∃ q, (r.holder q).isSome = true)] :
    r.mode = if ∃ q, ∃ h ∈ r.holder q, h.mode = .exclusive then some .exclusive
      else if ∃ q, (r.holder q).isSome = true then some .shared else none := by
  simp only [← Record.noExclusive_eq_false_iff, ← Record.noHolder_eq_false_iff]
  cases exclusive : r.noExclusive with
  | false => simp [Record.mode, exclusive, Record.noHolder_of_exclusive exclusive]
  | true => cases held : r.noHolder <;> simp [Record.mode, exclusive, held]

/-! ### The search of LIST -/

section
variable {s : State} {start : Nat}

/-- What LIST's search asks of one index. -/
def State.recordFrom (s : State) (start : Nat) (i : RecIx) : Option (RecIx × Record) :=
  if start ≤ i.val then (s.record i).map fun r => (i, r) else none

theorem State.firstRecordFrom_eq_findSome? (s : State) (start : Nat) :
    s.firstRecordFrom start = Fin.findSome? (s.recordFrom start) :=
  (Fin.findSome?_eq_findSome?_finRange _).symm

theorem State.recordFrom_eq_none_iff {i : RecIx} :
    s.recordFrom start i = none ↔ (start ≤ i.val → s.record i = none) := by
  simp [State.recordFrom]

/-- The search ends without a record exactly when the rest of the table is free. -/
theorem State.firstRecordFrom_eq_none_iff :
    s.firstRecordFrom start = none ↔ ∀ i : RecIx, start ≤ i.val → s.record i = none := by
  simp only [State.firstRecordFrom_eq_findSome?, Fin.findSome?_eq_none_iff,
    State.recordFrom_eq_none_iff]

/-- The search finds a record that only free indices precede from the start index on. -/
theorem State.firstRecordFrom_of_first {i : RecIx} {r : Record} (reached : start ≤ i.val)
    (stands : s.record i = some r) (first : ∀ j : RecIx, start ≤ j.val → j < i → s.record j = none) :
    s.firstRecordFrom start = some (i, r) := by
  have found : s.recordFrom start i = some (i, r) := by
    simp [State.recordFrom, reached, stands]
  have passed : ∀ j < i, s.recordFrom start j = none := fun j before =>
    State.recordFrom_eq_none_iff.mpr fun after_start => first j after_start before
  rw [State.firstRecordFrom_eq_findSome?]
  exact Fin.findSome?_eq_some_iff.mpr ⟨i, found, passed⟩

end

variable {s : State} {p : Port}

/-! ### The body of LOOKUP -/

section
variable {key : Word}

/-- The record of the key may be seen: with INSPECT, or with the key's class in the mask (R124). -/
def PortSettings.seesKey (set : PortSettings) (key : Word) : Prop :=
  set.rights.inspect = true ∨ set.classMask.getLsbD (key >>> 28).toNat = true

/-- The check of R124 as the body makes it. -/
theorem PortSettings.not_seesKey_iff (set : PortSettings) (key : Word) :
    (!set.rights.inspect && !classAllowed set.classMask key) = true ↔ ¬set.seesKey key := by
  simp [PortSettings.seesKey, classAllowed, keyClass]

theorem lookupBody_of_zero (zero : key = 0#32) : lookupBody p key s = s.answer .badParam :=
  if_pos zero

section
variable (nonzero : key ≠ 0#32)
include nonzero

theorem lookupBody_of_unseen (unseen : ¬(s.settings p).seesKey key) :
    lookupBody p key s = s.answer .classDenied :=
  (if_neg nonzero).trans (if_pos (((s.settings p).not_seesKey_iff key).mpr unseen))

variable (seen : (s.settings p).seesKey key)
include seen

theorem lookupBody_of_noRecord (absent : s.lookRecord key = none) :
    lookupBody p key s = s.answer .noRecord := by
  have passed := ((s.settings p).not_seesKey_iff key).not_left.mpr seen
  simp only [lookupBody, if_neg nonzero, if_neg passed, absent]

theorem lookupBody_of_record {i : RecIx} {r : Record} (found : s.lookRecord key = some (i, r)) :
    lookupBody p key s =
      ⟨s, .ok, .record (s.viewRecord (s.settings p).rights.inspect i r)⟩ := by
  have passed := ((s.settings p).not_seesKey_iff key).not_left.mpr seen
  simp only [lookupBody, if_neg nonzero, if_neg passed, found]

end

end

/-! ### The body of LIST -/

section
variable {start : Byte}

theorem listBody_of_noRight (right : (s.settings p).rights.inspect = false) :
    listBody p start s = s.answer .noRight := by
  simp [listBody, right]

section
variable (right : (s.settings p).rights.inspect = true)
include right

theorem listBody_of_end (free : ∀ i : RecIx, start.toNat ≤ i.val → s.record i = none) :
    listBody p start s = s.answer .endOfTable := by
  simp [listBody, right, State.firstRecordFrom_eq_none_iff.mpr free]

theorem listBody_of_first {i : RecIx} {r : Record} (reached : start.toNat ≤ i.val)
    (stands : s.record i = some r)
    (first : ∀ j : RecIx, start.toNat ≤ j.val → j < i → s.record j = none) :
    listBody p start s = ⟨s, .ok, .record (s.viewRecord true i r)⟩ := by
  simp [listBody, right, State.firstRecordFrom_of_first reached stands first]

end

end

/-- Settles O28: each command is its body and its reply, and the body's equations, cited in the order of the
checks, say which outcome it is; what is reported of a record is its view, with the mode read from its
holdings. -/
theorem lookupListOutcome : Obligations.LookupListOutcome := by
  unfold Obligations.LookupListOutcome
  intro s p tag set view attached
  have view_eq : ∀ inspect i r, Fields.record (s.viewRecord inspect i r) = view inspect i r :=
    fun inspect i r => congrArg
      (fun mode => Fields.record { s.viewRecord inspect i r with mode }) (@Record.mode_eq r _ _)
  refine ⟨fun key taken => ?lookup, fun start taken => ?list⟩
  case lookup =>
    intro reply seen
    have by_body : ∀ {st f},
        lookupBody p key { s with served := p } = ⟨{ s with served := p }, st, f⟩ → reply st f :=
      exec_of_answer (exec_lookup p key s) taken attached
    exact ⟨fun zero => by_body (lookupBody_of_zero zero),
      fun nonzero unseen => by_body (lookupBody_of_unseen nonzero unseen),
      fun nonzero sees absent => by_body (lookupBody_of_noRecord nonzero sees absent),
      fun i r nonzero sees found => view_eq set.rights.inspect i r ▸
        by_body (lookupBody_of_record (s := { s with served := p }) nonzero sees found)⟩
  case list =>
    intro reply
    have by_body : ∀ {st f},
        listBody p start { s with served := p } = ⟨{ s with served := p }, st, f⟩ → reply st f :=
      exec_of_answer (exec_list p start s) taken attached
    exact ⟨fun no_right => by_body (listBody_of_noRight no_right),
      fun right free => by_body (listBody_of_end right free),
      fun i r right reached stands first => view_eq true i r ▸
        by_body (listBody_of_first (s := { s with served := p }) right reached stands first)⟩

end Sys2Proof.Machine
end

section
/-! The framing checks (R143). The command table of 11.2 comes first: a recognised code with as many bytes
as its command has parameters names a command that is spelled by just these bytes. Then the checks on
length, CRC and tag, and how a frame that passes them is read by its code. -/

namespace Sys2Proof

/-! ### The command table -/

@[simp] theorem halfBytes_half (b1 b0 : Byte) : halfBytes (half b1 b0) = [b1, b0] := by
  simp only [halfBytes, half, List.cons.injEq, and_true]
  exact ⟨BitVec.extractLsb'_append_eq_left, BitVec.extractLsb'_append_eq_right⟩

@[simp] theorem wordBytes_word (b3 b2 b1 b0 : Byte) : wordBytes (word b3 b2 b1 b0) = [b3, b2, b1, b0] := by
  simp only [wordBytes, word, List.cons.injEq, and_true]
  refine ⟨?_, ?_, ?_, ?_⟩ <;> exact BitVec.eq_of_getLsbD_eq (by grind)

namespace Laws.Wire

/-- The family Wire as one statement: the bytes of a host command name it, at the length of its code. -/
theorem statement_of_every_row (c : Instr) : Statement c := by
  cases c with
  | hello p => exact hello p
  | bye p => exact bye p
  | acquire p key mode lease wait => exact acquire p key mode lease wait
  | release p key token => exact release p key token
  | cancel p key => exact cancel p key
  | renew p key token lease => exact renew p key token lease
  | verify p key token => exact verify p key token
  | peekNotice p => exact peekNotice p
  | ackNotice p seq => exact ackNotice p seq
  | lookup p key => exact lookup p key
  | list p start => exact list p start
  | time p => exact time p
  | status p => exact status p
  | ident p => exact ident p
  | mySlot p index => exact mySlot p index
  | revoke p key target => exact revoke p key target
  | eject p target => exact eject p target
  | restart p => exact restart p
  | stageBegin p => exact stageBegin p
  | stageSet p item index value => exact stageSet p item index value
  | stageRead p item index => exact stageRead p item index
  | stageAbort p => exact stageAbort p
  | commit p => exact commit p
  | stageStatus p => exact stageStatus p
  | _ => exact of_none rfl

end Laws.Wire

section
variable {code : Byte} {m : Nat}

/-- By the rows of the command table: each code with as many bytes as its command has parameters. -/
theorem exists_command_of_lengthOfCode (p : Port) (fixed : lengthOfCode code = some m)
    (bytes : Fin (m - 3) → Byte) :
    3 ≤ m ∧ ∃ c, commandOf p code (List.ofFn bytes) = some c ∧
      wireOf c = some (p, code, List.ofFn bytes) := by
  unfold lengthOfCode at fixed
  split at fixed <;> cases fixed <;> exact ⟨by decide, _, rfl, by simp [wireOf]⟩

theorem exists_command_of_params (p : Port) (fixed : lengthOfCode code = some m) {params : List Byte}
    (enough : params.length = m - 3) :
    ∃ c, commandOf p code params = some c ∧ wireOf c = some (p, code, params) := by
  obtain ⟨-, named⟩ := exists_command_of_lengthOfCode p fixed fun i => params[i]
  rwa [show List.ofFn (fun i : Fin (m - 3) => params[i]) = params by
    apply List.ext_getElem <;> simp [enough]] at named

theorem lengthOfCode_eq_some_iff : lengthOfCode code = some m ↔
    ∃ c q params, wireOf c = some (q, code, params) ∧ m = params.length + 3 := by
  constructor
  · intro fixed
    obtain ⟨three_le, c, -, spells⟩ := exists_command_of_lengthOfCode 0 fixed fun _ => 0#8
    exact ⟨c, 0, _, spells, by rw [List.length_ofFn]; omega⟩
  · rintro ⟨c, q, params, spells, rfl⟩
    exact (Laws.Wire.statement_of_every_row c q code params spells).2

end

/-! ### The checks on length, CRC and tag -/

/-- The parts of a frame at their places among the received bytes (R141), whatever the checks say. -/
def partsOf (rx : List Byte) : FrameParts where
  len := (rx.getD 0 0#8).toNat
  tag := (rx.getD 1 0#8).extractLsb' 0 4
  code := rx.getD 2 0#8
  params := (rx.drop 3).take ((rx.getD 0 0#8).toNat - 3)

/-- The received bytes pass the checks of R143 on length, CRC and tag. -/
structure Framed (rx : List Byte) : Prop where
  complete : (partsOf rx).len < rx.length
  lower : 3 ≤ (partsOf rx).len
  upper : (partsOf rx).len ≤ 15
  crc : rx.getD (partsOf rx).len 0#8 = crc8 (rx.take (partsOf rx).len)
  tag : (rx.getD 1 0#8).extractLsb' 4 4 = 0#4

section
variable {rx : List Byte}

/-- The negations of the five checks, as R143 lists them. -/
theorem not_framed_iff : ¬Framed rx ↔
    rx.length < (partsOf rx).len + 1 ∨ (partsOf rx).len < 3 ∨ 15 < (partsOf rx).len ∨
      rx.getD (partsOf rx).len 0#8 ≠ crc8 (rx.take (partsOf rx).len) ∨
      (rx.getD 1 0#8).extractLsb' 4 4 ≠ 0#4 := by
  constructor
  · intro broken
    by_contra! passed
    obtain ⟨complete, lower, upper, crc, tag⟩ := passed
    exact broken ⟨complete, lower, upper, crc, tag⟩
  · rintro failed ⟨complete, lower, upper, crc, tag⟩
    simp only [crc, tag, ne_eq, not_true_eq_false, or_false] at failed
    omega

theorem Framed.params_length (framed : Framed rx) :
    (partsOf rx).params.length = (partsOf rx).len - 3 := by
  have complete := framed.complete
  simp only [partsOf, List.length_take, List.length_drop] at complete ⊢
  omega

theorem splitFrame_of_badLength
    (bad : rx.length ≤ (partsOf rx).len ∨ (partsOf rx).len < 3 ∨ 15 < (partsOf rx).len) :
    splitFrame rx = none := by
  cases rx with
  | nil => rfl
  | cons len rest =>
    refine if_pos ?_
    simp only [partsOf, List.getD_cons_zero, List.length_cons] at bad
    omega

section
variable {len tag code : Byte} {rest : List Byte} {k : Nat}

theorem partsOf_cons (counts : len.toNat = k + 3) :
    partsOf (len :: tag :: code :: rest) = ⟨k + 3, tag.extractLsb' 0 4, code, rest.take k⟩ := by
  simp [partsOf, counts]

theorem framed_cons_iff (counts : len.toNat = k + 3) (upper : k ≤ 12) (complete : k < rest.length) :
    Framed (len :: tag :: code :: rest) ↔
      rest.getD k 0#8 = crc8 (len :: tag :: code :: rest.take k) ∧ tag.extractLsb' 4 4 = 0#4 := by
  have in_range : ¬(rest.length + 3 < k + 3 + 1) ∧ ¬(k + 3 < 3) ∧ ¬(15 < k + 3) := by omega
  rw [← not_iff_not, not_framed_iff, partsOf_cons counts]
  simp only [List.length_cons, in_range, false_or, List.getD_cons_succ, List.take_succ_cons,
    List.getD_cons_zero, not_and_or]

theorem splitFrame_cons (counts : len.toNat = k + 3) (upper : k ≤ 12) (complete : k < rest.length) :
    splitFrame (len :: tag :: code :: rest) =
      if rest.getD k 0#8 = crc8 (len :: tag :: code :: rest.take k) ∧ tag.extractLsb' 4 4 = 0#4 then
        some ⟨k + 3, tag.extractLsb' 0 4, code, rest.take k⟩
      else none := by
  have in_range : ¬(k + 3 < 3 ∨ 15 < k + 3 ∨ (tag :: code :: rest).length < k + 3) := by
    simp only [List.length_cons]; omega
  simp only [splitFrame, counts, if_neg in_range, Nat.add_one_sub_one, List.take_succ_cons,
    List.getD_cons_succ, ite_and, ne_eq, ite_not]

end

theorem splitFrame_eq_some_iff {f : FrameParts} :
    splitFrame rx = some f ↔ Framed rx ∧ f = partsOf rx := by
  by_cases bad : rx.length ≤ (partsOf rx).len ∨ (partsOf rx).len < 3 ∨ 15 < (partsOf rx).len
  case pos =>
    have broken : ¬Framed rx := fun ⟨complete, lower, upper, _, _⟩ => by omega
    simp [splitFrame_of_badLength bad, broken]
  case neg =>
    match rx with
    | [] | [_] | [_, _] => exact absurd bad (by simp only [List.length_nil, List.length_cons]; omega)
    | len :: tag :: code :: rest =>
      obtain ⟨k, counts⟩ : ∃ k, len.toNat = k + 3 :=
        Nat.exists_eq_add_of_le' (Nat.not_lt.mp fun below => bad (.inr (.inl below)))
      have parts := partsOf_cons (tag := tag) (code := code) (rest := rest) counts
      simp only [parts, List.length_cons] at bad
      rw [splitFrame_cons counts (by omega) (by omega), framed_cons_iff counts (by omega) (by omega),
        parts, Option.ite_none_right_eq_some, Option.some_inj, eq_comm (a := f)]

/-! ### The reading of a frame by its code -/

variable (p : Port)

theorem readFrame_of_not_framed (broken : ¬Framed rx) : readFrame p rx = .fault := by
  have none_split : splitFrame rx = none :=
    Option.eq_none_iff_forall_ne_some.mpr fun _ split => broken (splitFrame_eq_some_iff.mp split).1
  simp [readFrame, none_split]

section
variable {p} (framed : Framed rx)
include framed

theorem Framed.readFrame_of_unrecognised (unknown : lengthOfCode (partsOf rx).code = none) :
    readFrame p rx = .unknown (partsOf rx).tag (partsOf rx).code := by
  simp [readFrame, splitFrame_eq_some_iff.mpr ⟨framed, rfl⟩, unknown]

theorem Framed.readFrame_of_otherLength {m : Nat} (fixed : lengthOfCode (partsOf rx).code = some m)
    (other : m ≠ (partsOf rx).len) :
    readFrame p rx = .fault := by
  simp [readFrame, splitFrame_eq_some_iff.mpr ⟨framed, rfl⟩, fixed, other.symm]

theorem Framed.readFrame_of_fixedLength
    (fixed : lengthOfCode (partsOf rx).code = some (partsOf rx).len) :
    ∃ c, wireOf c = some (p, (partsOf rx).code, (partsOf rx).params) ∧
      readFrame p rx = .command (partsOf rx).tag c := by
  obtain ⟨c, named, spells⟩ := exists_command_of_params p fixed framed.params_length
  exact ⟨c, spells, by simp [readFrame, splitFrame_eq_some_iff.mpr ⟨framed, rfl⟩, fixed, named]⟩

end

theorem readFrame_eq_fault_iff : readFrame p rx = .fault ↔
    ¬Framed rx ∨ ∃ m, lengthOfCode (partsOf rx).code = some m ∧ m ≠ (partsOf rx).len := by
  by_cases framed : Framed rx
  case neg => simp [readFrame_of_not_framed p framed, framed]
  case pos =>
    cases fixed : lengthOfCode (partsOf rx).code with
    | none => simp [framed.readFrame_of_unrecognised fixed, framed]
    | some m =>
      by_cases own : m = (partsOf rx).len
      · obtain ⟨c, -, reads⟩ := framed.readFrame_of_fixedLength (p := p) (own ▸ fixed)
        simp [reads, framed, own]
      · simp [framed.readFrame_of_otherLength fixed own, own]

variable {p}

theorem framed_of_readFrame_ne_fault (passes : readFrame p rx ≠ .fault) : Framed rx :=
  not_not.mp fun broken => passes (readFrame_of_not_framed p broken)

theorem readFrame_of_recognised (passes : readFrame p rx ≠ .fault)
    (recognised : lengthOfCode (partsOf rx).code ≠ none) :
    ∃ c, wireOf c = some (p, (partsOf rx).code, (partsOf rx).params) ∧
      readFrame p rx = .command (partsOf rx).tag c := by
  have framed := framed_of_readFrame_ne_fault passes
  obtain ⟨m, fixed⟩ := Option.ne_none_iff_exists'.mp recognised
  obtain rfl : m = (partsOf rx).len :=
    not_not.mp fun other => passes (framed.readFrame_of_otherLength fixed other)
  exact framed.readFrame_of_fixedLength fixed

theorem readFrame_eq_unknown_iff {g : BitVec 4} {k : Byte} : readFrame p rx = .unknown g k ↔
    readFrame p rx ≠ .fault ∧ lengthOfCode (partsOf rx).code = none ∧
      g = (partsOf rx).tag ∧ k = (partsOf rx).code := by
  constructor
  · intro reads
    have passes : readFrame p rx ≠ .fault := by simp [reads]
    have unknown : lengthOfCode (partsOf rx).code = none := by
      by_contra recognised
      obtain ⟨c, -, command⟩ := readFrame_of_recognised passes recognised
      exact FrameReading.noConfusion (reads.symm.trans command)
    have framed := framed_of_readFrame_ne_fault passes
    obtain ⟨rfl, rfl⟩ :=
      FrameReading.unknown.inj (reads.symm.trans (framed.readFrame_of_unrecognised unknown))
    exact ⟨passes, unknown, rfl, rfl⟩
  · rintro ⟨passes, unknown, rfl, rfl⟩
    exact (framed_of_readFrame_ne_fault passes).readFrame_of_unrecognised unknown

theorem readFrame_eq_command_iff {g : BitVec 4} {c : Instr} : readFrame p rx = .command g c ↔
    readFrame p rx ≠ .fault ∧ g = (partsOf rx).tag ∧
      wireOf c = some (p, (partsOf rx).code, (partsOf rx).params) := by
  constructor
  · intro reads
    have passes : readFrame p rx ≠ .fault := by simp [reads]
    have recognised : lengthOfCode (partsOf rx).code ≠ none := fun unknown => by
      simp [(framed_of_readFrame_ne_fault passes).readFrame_of_unrecognised unknown] at reads
    obtain ⟨d, spells, command⟩ := readFrame_of_recognised passes recognised
    obtain ⟨rfl, rfl⟩ := FrameReading.command.inj (reads.symm.trans command)
    exact ⟨passes, rfl, spells⟩
  · rintro ⟨passes, rfl, spells⟩
    obtain ⟨named, fixed⟩ := Laws.Wire.statement_of_every_row c p _ _ spells
    obtain ⟨d, also_spells, command⟩ := readFrame_of_recognised passes (by simp [fixed])
    have also_named := (Laws.Wire.statement_of_every_row d p _ _ also_spells).1
    rwa [Option.some_inj.mp (named.symm.trans also_named)]

end

/-- Settles O30, with `partsOf` as the bytes at the places of R141: `Framed` is the checks on length, CRC
and tag, the rows of the command table fix the lengths, and the code of a framed frame chooses its reading. -/
theorem framingChecks : Obligations.FramingChecks := by
  unfold Obligations.FramingChecks
  intro p rx n tag code
  refine ⟨?fault, fun k m => lengthOfCode_eq_some_iff, fun g k => readFrame_eq_unknown_iff,
    fun g c => readFrame_eq_command_iff⟩
  case fault =>
    have missing : rx = [] → ¬Framed rx := by
      rintro rfl ⟨complete, -⟩
      exact Nat.not_lt_zero _ complete
    rw [readFrame_eq_fault_iff, ← or_iff_right_of_imp missing, not_framed_iff]
    simp only [or_assoc]
    rfl

end Sys2Proof
end

section
/-! STAGE_BEGIN (R166). Its body comes first as one equation for each of its checks, in their order, and one
for the image that opens; the row is then the body and its reply. -/

namespace Sys2Proof.Machine

variable {s : State} {p : Port}

/-! ### The body of STAGE_BEGIN -/

theorem stageBeginBody_of_noRight (no_right : (s.settings p).rights.configure = false) :
    stageBeginBody p s = s.answer .noRight := by
  simp [stageBeginBody, no_right]

section
variable (right : (s.settings p).rights.configure = true)
include right

theorem stageBeginBody_of_frozen (frozen : s.cfg.storeFrozen = true) :
    stageBeginBody p s = s.answer .frozen := by
  simp [stageBeginBody, right, frozen]

variable (unfrozen : s.cfg.storeFrozen = false)
include unfrozen

theorem stageBeginBody_of_staged (staged : s.cfg.staging ≠ .idle) :
    stageBeginBody p s = s.answer .stageOwned := by
  simp [stageBeginBody, right, unfrozen, staged]

theorem stageBeginBody_of_idle (idle : s.cfg.staging = .idle) :
    stageBeginBody p s = ⟨{ s with cfg := s.cfg.openImage p s.cfg.effective }, .ok, .none⟩ := by
  simp [stageBeginBody, right, unfrozen, idle]

end

/-- Settles O40: a DETACHED port is refused by the session check; from an ATTACHED port the row is its body
and its reply, and the body's equations, cited in the order of R166's checks, say which outcome it is. -/
theorem stageBeginOutcome : Obligations.StageBeginOutcome := by
  unfold Obligations.StageBeginOutcome
  intro s p tag c refused right taken
  have row := exec_stageBegin p s
  refine ⟨exec_of_detached row taken, fun attached => ?attached⟩
  case attached =>
    have by_body : ∀ {st}, stageBeginBody p { s with served := p } =
        State.answer { s with served := p } st → refused st :=
      exec_of_answer row taken attached
    refine ⟨fun no_right => by_body (stageBeginBody_of_noRight no_right),
      fun has_right frozen => by_body (stageBeginBody_of_frozen has_right frozen),
      fun has_right unfrozen staged => by_body (stageBeginBody_of_staged has_right unfrozen staged),
      fun has_right unfrozen idle => ?opens⟩
    case opens =>
      rw [row, State.runCommand_attached taken attached,
        stageBeginBody_of_idle (s := { s with served := p }) has_right unfrozen idle]
      rfl

end Sys2Proof.Machine
end

section
/-! The machine's own statements: one step of the queue, the state after reset, and when the engine takes a
command (R17, R147). -/

namespace Sys2Proof.Machine

/-- Settles O1: a step takes the row at the front of the queue. -/
theorem stepRunsFrontCommand : Obligations.StepRunsFrontCommand := by
  unfold Obligations.StepRunsFrontCommand
  intro c rest s
  rfl

/-- Settles O3: each value of the state at the entry of the first BOOT, by evaluation. -/
theorem resetState : Obligations.ResetState := by
  unfold Obligations.ResetState
  refine ⟨rfl, rfl, rfl, rfl, rfl, rfl, rfl, ?records, ?slots, ?ports, rfl, ?channels, ?rows, rfl, rfl, rfl, rfl,
    rfl, rfl, rfl, rfl, rfl, rfl, rfl⟩
  case records => decide +kernel
  case slots => decide +kernel
  case ports => decide +kernel
  case channels => decide +kernel
  case rows => rintro (side | side | side) <;> cases side <;> decide +kernel

/-! ### Searches in the order of the indices -/

/-- A search through the indices finds the first that has the property. -/
theorem find?_finRange_eq_some_iff {n : Nat} {f : Fin n → Bool} {i : Fin n} :
    (List.finRange n).find? f = some i ↔ f i = true ∧ ∀ j, j < i → f j = false := by
  rw [← List.ofFn_id, List.find?_ofFn_eq_some]
  simp

/-! ### The rotating order of the arbiter -/

/-- The arbiter chooses the first port, from the one after the port served last on, whose command is
executing (R17). -/
theorem State.arbiterChoice_eq_some_iff (s : State) (p : Port) :
    s.arbiterChoice = some p ↔ ∃ k : Fin 4, p = s.served + 1 + k ∧ (s.port p).executing = true ∧
      ∀ j : Fin 4, j < k → (s.port (s.served + 1 + j)).executing = false := by
  have order : [s.served + 1, s.served + 2, s.served + 3, s.served] =
      (List.finRange 4).map fun j => s.served + 1 + j := by
    generalize s.served = q
    revert q; decide
  rw [State.arbiterChoice, order, List.find?_map, Option.map_eq_some_iff]
  simp only [find?_finRange_eq_some_iff, Function.comp_apply]
  constructor
  · rintro ⟨k, ⟨executing, earlier⟩, rfl⟩
    exact ⟨k, rfl, executing, earlier⟩
  · rintro ⟨k, rfl, executing, earlier⟩
    exact ⟨k, ⟨executing, earlier⟩, rfl⟩

theorem State.takesCommands_iff (s : State) :
    s.takesCommands = true ↔ s.device = .ready ∧ s.hold = .none := by
  simp [State.takesCommands]

/-- When the engine takes a command (R17, R147, R180, R190). -/
theorem State.takenTag_eq_some_iff (s : State) (p : Port) (c : Instr) (tag : BitVec 4) :
    s.takenTag p c = some tag ↔
      s.takesCommands = true ∧ (s.port p).slot = .pending tag c ∧ s.arbiterChoice = some p := by
  unfold State.takenTag
  cases slot : (s.port p).slot with
  | empty => simp
  | filled r => simp
  | pending g d =>
    simp only [Option.ite_none_right_eq_some, Option.some.injEq, ReplySlot.pending.injEq]
    constructor
    · rintro ⟨⟨takes, chosen, rfl⟩, rfl⟩
      exact ⟨takes, ⟨rfl, rfl⟩, chosen⟩
    · rintro ⟨takes, ⟨rfl, rfl⟩, chosen⟩
      exact ⟨⟨takes, chosen, rfl⟩, rfl⟩

/-- What takes a command: a part in READY without a hold, whose arbiter comes to the port of the command. -/
theorem State.takenTag_eq_some_iff_order (s : State) (p : Port) (c : Instr) (tag : BitVec 4) :
    s.takenTag p c = some tag ↔
      s.device = .ready ∧ s.hold = .none ∧ (s.port p).slot = .pending tag c ∧
        ∃ k : Fin 4, p = s.served + 1 + k ∧
          ∀ j : Fin 4, j < k → (s.port (s.served + 1 + j)).executing = false := by
  rw [State.takenTag_eq_some_iff, State.takesCommands_iff, State.arbiterChoice_eq_some_iff]
  constructor
  · rintro ⟨⟨ready, hold⟩, slot, k, rfl, -, earlier⟩
    exact ⟨ready, hold, slot, k, rfl, earlier⟩
  · rintro ⟨ready, hold, slot, k, rfl, earlier⟩
    exact ⟨⟨ready, hold⟩, slot, k, rfl, by rw [PortUnit.executing, slot], earlier⟩

/-! ### Host commands -/

theorem codeOf_of_wireOf {c : Instr} {p : Port} {code : Byte} {params : List Byte}
    (wire : wireOf c = some (p, code, params)) : codeOf c = code := by rw [codeOf, wire]

/-- The four commands of a DETACHED port (R88). -/
def Instr.takenDetached (c : Instr) (p : Port) : Prop :=
  c = .hello p ∨ c = .ident p ∨ c = .time p ∨ c = .status p

/-- Every other host command makes the session check (R89). -/
theorem exec_eq_whenAttached {c : Instr} {p : Port} {code : Byte} {params : List Byte}
    (wire : wireOf c = some (p, code, params)) (checked : ¬Instr.takenDetached c p) :
    ∃ body, ∀ s, exec c s = s.runCommand p c fun s => s.whenAttached p body := by
  cases c <;> cases wire
  case bye => exact ⟨_, exec_bye p⟩
  case acquire => exact ⟨_, exec_acquire p _ _ _ _⟩
  case release => exact ⟨_, exec_release p _ _⟩
  case cancel => exact ⟨_, exec_cancel p _⟩
  case renew => exact ⟨_, exec_renew p _ _ _⟩
  case verify => exact ⟨_, exec_verify p _ _⟩
  case peekNotice => exact ⟨_, exec_peekNotice p⟩
  case ackNotice => exact ⟨_, exec_ackNotice p _⟩
  case lookup => exact ⟨_, exec_lookup p _⟩
  case list => exact ⟨_, exec_list p _⟩
  case mySlot => exact ⟨_, exec_mySlot p _⟩
  case revoke => exact ⟨_, exec_revoke p _ _⟩
  case eject => exact ⟨_, exec_eject p _⟩
  case restart => exact ⟨_, exec_restart p⟩
  case stageBegin => exact ⟨_, exec_stageBegin p⟩
  case stageSet => exact ⟨_, exec_stageSet p _ _ _⟩
  case stageRead => exact ⟨_, exec_stageRead p _ _⟩
  case stageAbort => exact ⟨_, exec_stageAbort p⟩
  case commit => exact ⟨_, exec_commit p⟩
  case stageStatus => exact ⟨_, exec_stageStatus p⟩
  all_goals exact absurd (by simp [Instr.takenDetached]) checked

/-- The row of a host command is the execution of that command for the port that sent it. -/
theorem exec_eq_runCommand {c : Instr} {p : Port} {code : Byte} {params : List Byte}
    (wire : wireOf c = some (p, code, params)) :
    ∃ body, ∀ s, exec c s = s.runCommand p c body := by
  by_cases four : Instr.takenDetached c p
  · rcases four with rfl | rfl | rfl | rfl
    · exact ⟨_, exec_hello p⟩
    · exact ⟨_, exec_ident p⟩
    · exact ⟨_, exec_time p⟩
    · exact ⟨_, exec_status p⟩
  · obtain ⟨body, row⟩ := exec_eq_whenAttached wire four
    exact ⟨_, row⟩

/-- Settles O5: the arbiter's search is the rotating order; a reply is the change of its port's slot; and the
row of every host command is runCommand, which leaves the state where the command is not taken. -/
theorem commandTakenWhen : Obligations.CommandTakenWhen := by
  unfold Obligations.CommandTakenWhen
  intro s p c code params wire
  refine ⟨s.takenTag_eq_some_iff_order p c, fun tag status fields => ?reply, fun untaken => ?untaken⟩
  case reply => rw [State.placeReply, State.modPort, codeOf_of_wireOf wire]
  case untaken =>
    obtain ⟨body, row⟩ := exec_eq_runCommand wire
    rw [row, State.runCommand_untaken untaken]

/-- Settles O6: the four commands answer OK by their bodies, and every other command makes the session
check. -/
theorem detachedRefusal : Obligations.DetachedRefusal := by
  unfold Obligations.DetachedRefusal
  intro s p tag c code params wire taken detached
  split
  case isTrue four =>
    rcases four with rfl | rfl | rfl | rfl
    · exact ⟨_, _, (exec_hello p s).trans (State.runCommand_taken taken)⟩
    · exact ⟨_, _, (exec_ident p s).trans (State.runCommand_taken taken)⟩
    · exact ⟨_, _, (exec_time p s).trans (State.runCommand_taken taken)⟩
    · exact ⟨_, _, (exec_status p s).trans (State.runCommand_taken taken)⟩
  case isFalse other =>
    obtain ⟨body, row⟩ := exec_eq_whenAttached wire other
    exact exec_of_detached (row s) taken detached

end Sys2Proof.Machine
end

section
/-! Statements that a case split on one definition settles: the invariants at reset, the queries without a
check, the status byte, the phases of a row, and the events of the gate unit. -/

namespace Sys2Proof.Machine

/-! ### The invariants at reset -/

theorem State.record_reset (i : RecIx) : State.reset.record i = none := by revert i; decide +kernel

theorem State.slot_reset (p : Port) (k : SlotIx) : State.reset.slot p k = .free := by
  revert p k; decide +kernel

theorem State.port_reset (p : Port) : State.reset.port p = PortUnit.reset := by revert p; decide +kernel

theorem State.chan_reset (ch : Channel) : State.reset.chan ch = ⟨0#32, 0#16, .unbound, true⟩ := by
  revert ch; decide +kernel

theorem State.reserveRowClass_reset (side : Side) : State.reset.reserveRowClass side = .blank := by
  cases side <;> decide +kernel

theorem tokenInv_reset : TokenInv State.reset := by
  unfold TokenInv; decide +kernel

theorem holdingTokenInv_reset : HoldingTokenInv State.reset := by
  unfold HoldingTokenInv; decide +kernel

theorem claimTableInv_reset : ClaimTableInv State.reset where
  records i r h := by rw [State.record_reset] at h; cases h
  keys i j r h := by rw [State.record_reset] at h; cases h
  slots p k := by simp [SlotInv, State.slot_reset, State.port_reset, PortUnit.reset]
  queues p := by rw [State.port_reset]; decide
  detached p _ := ⟨State.slot_reset p, by rw [State.port_reset]; rfl⟩

theorem gateInv_reset : GateInv State.reset := by
  refine ⟨by decide +kernel, by decide +kernel, fun ch => ?_⟩
  simp [State.chan_reset]

theorem floorInv_reset : FloorInv State.reset := by
  refine ⟨by simp [State.reserveRowClass_reset], by decide, fun _ => ⟨?_, by decide⟩, ?_, ?_, ?_⟩
  · intro side active; cases active
  · intro _ _ side floor valid; rw [State.reserveRowClass_reset] at valid; cases valid
  · intro req attempt busy; cases busy
  · intro req side advances; rcases advances with h | h <;> cases h

theorem deviceInv_reset : DeviceInv State.reset where
  inReset := by decide
  hold := by decide
  restartTick := by decide
  supplyLow := by decide
  now _ := rfl
  table _ := State.record_reset
  ports _ p := by rw [State.port_reset]; decide
  lines _ ch := by rw [State.chan_reset]; decide

theorem linkInv_reset : LinkInv State.reset := by
  intro p
  rw [State.port_reset]
  simp [PortUnit.reset, LinkPins.idle]

theorem configInv_reset : ConfigInv State.reset where
  limits := by decide +kernel
  notReady _ := rfl
  idle _ := ⟨rfl, rfl, rfl, rfl, fun _ h => by cases h⟩
  opened h := by cases h
  committed h := by rcases h with h | h <;> cases h
  commitPending h := by cases h
  programming h := by cases h
  records side q h := by cases side <;> cases h
  newest h := absurd rfl h
  frozen h := by cases h

theorem deadlineInv_reset : DeadlineInv State.reset where
  leases i r h := by rw [State.record_reset] at h; cases h
  waits i r h := by rw [State.record_reset] at h; cases h
  stored i r h := by rw [State.record_reset] at h; cases h
  guards ch := by
    refine ⟨by revert ch; decide +kernel, by rw [State.chan_reset]; decide, fun deadline h => ?_⟩
    rw [State.chan_reset] at h; cases h

/-- Settles O4: each invariant on the state as shipped, whose table, slots, queues and rows are empty. -/
theorem safeAtReset : Obligations.SafeAtReset :=
  ⟨tokenInv_reset, holdingTokenInv_reset, claimTableInv_reset, gateInv_reset, floorInv_reset, deviceInv_reset,
    linkInv_reset, configInv_reset, deadlineInv_reset⟩

/-! ### The queries without a check -/

/-- Settles O29: the bodies of the four queries, each of which answers without effect. -/
theorem timeStatusIdentReplies : Obligations.TimeStatusIdentReplies := by
  unfold Obligations.TimeStatusIdentReplies
  intro s p tag
  refine ⟨fun taken => ?time, fun taken => ?ident, fun taken => ?status, fun taken attached => ?stageStatus⟩
  case time => exact (exec_time p s).trans (State.runCommand_answer taken rfl)
  case ident => exact (exec_ident p s).trans (State.runCommand_answer taken rfl)
  case status =>
    refine ⟨s.statusView, (exec_status p s).trans (State.runCommand_answer taken rfl), rfl, rfl, rfl, rfl, ?_, rfl,
      rfl, rfl, ?_, rfl, rfl⟩
    · intro ch
      simp [State.statusView, State.chan]
    · simp [State.statusView, ConfigUnit.pendingChange]
  case stageStatus => exact exec_of_answer (exec_stageStatus p s) taken attached rfl

/-! ### The status byte and the lines -/

/-- The bits of the status byte, from its lowest (R151). -/
theorem statusByte_getLsbD (device : DeviceState) (u : PortUnit) (k : Nat) :
    (statusByte device u).getLsbD k = [device == .boot, u.attached, u.executing, u.replyReady, u.noticesFlag,
      u.frameError, u.overrun, u.sessionLost].getD k false := by
  unfold statusByte
  generalize (device == .boot) = b0
  generalize u.attached = b1
  generalize u.executing = b2
  generalize u.replyReady = b3
  generalize u.noticesFlag = b4
  generalize u.frameError = b5
  generalize u.overrun = b6
  generalize u.sessionLost = b7
  by_cases h : k < 8
  · interval_cases k <;> revert b0 b1 b2 b3 b4 b5 b6 b7 <;> decide
  · rw [BitVec.getLsbD_of_ge _ _ (by omega), List.getD_eq_default _ _ (by simpa using h)]

theorem PortUnit.executing_iff (u : PortUnit) : u.executing = true ↔ ∃ tag c, u.slot = .pending tag c := by
  unfold PortUnit.executing
  cases u.slot <;> simp

theorem PortUnit.replyReady_iff (u : PortUnit) : u.replyReady = true ↔ ∃ r, u.slot = .filled r := by
  unfold PortUnit.replyReady
  cases u.slot <;> simp

theorem PortUnit.noticesFlag_iff (u : PortUnit) : u.noticesFlag = true ↔ u.notices ≠ [] := by
  simp [PortUnit.noticesFlag]

theorem PortUnit.attnLow_iff (u : PortUnit) : u.attnLow = true ↔ u.attached = true ∧ u.notices ≠ [] := by
  simp [PortUnit.attnLow]

/-- EXECUTING and REPLY_READY exclude each other, so that a status byte has a bit clear. -/
theorem statusByte_ne_ones (device : DeviceState) (u : PortUnit) : statusByte device u ≠ 0xFF#8 := by
  intro ones
  have executing := statusByte_getLsbD device u 2
  have replyReady := statusByte_getLsbD device u 3
  rw [ones] at executing replyReady
  obtain ⟨tag, c, pending⟩ := u.executing_iff.mp executing.symm
  obtain ⟨r, filled⟩ := u.replyReady_iff.mp replyReady.symm
  rw [pending] at filled
  cases filled

/-- A DETACHED port has no notice, so that ATTNn agrees with NOTICES (R88, R118). -/
theorem ClaimTableInv.attnLow_eq {s : State} (inv : ClaimTableInv s) (p : Port) :
    (s.port p).attnLow = (s.port p).noticesFlag := by
  unfold PortUnit.attnLow PortUnit.noticesFlag
  cases attached : (s.port p).attached with
  | true => rfl
  | false => simp [(inv.detached p attached).2]

/-- Settles O37: the status byte bit by bit, and what each flag reads. -/
theorem statusByteAndLines : Obligations.StatusByteAndLines := by
  unfold Obligations.StatusByteAndLines
  intro s p u b
  have bit : ∀ k, b.getLsbD k = _ := statusByte_getLsbD s.device u
  refine ⟨?_, ?_, ?_, ?_, ?_, ?_, ?_, ?_, statusByte_ne_ones s.device u, u.executing_iff, u.attnLow_iff,
    fun inv => ?_, fun ch => ?_⟩
  · rw [bit 0]; exact beq_iff_eq
  · rw [bit 1]; rfl
  · rw [bit 2]; exact u.executing_iff
  · rw [bit 3]; exact u.replyReady_iff
  · rw [bit 4]; exact u.noticesFlag_iff
  · rw [bit 5]; rfl
  · rw [bit 6]; rfl
  · rw [bit 7]; rfl
  · rw [bit 4]; exact inv.attnLow_eq p
  · exact beq_iff_eq

/-! ### The phases of a row -/

/-- ROW_ERASE_DONE is an event of the erase phase alone (R157, log 4). -/
theorem exec_rowEraseDone_of_otherPhase {s : State}
    (other : ∀ req attempt, s.store.engine ≠ .busy req attempt .erase) : exec .rowEraseDone s = .next s := by
  show execRowEraseDone s = .next s
  unfold execRowEraseDone
  split
  · rename_i req attempt erasing; exact absurd erasing (other req attempt)
  all_goals rfl

/-- ROW_WRITE_DONE is an event of the write phase alone (R157, log 4). -/
theorem exec_rowWriteDone_of_otherPhase {s : State}
    (other : ∀ req attempt, s.store.engine ≠ .busy req attempt .write) : exec .rowWriteDone s = .next s := by
  show execRowWriteDone s = .next s
  unfold execRowWriteDone
  split
  · rename_i req attempt writing; exact absurd writing (other req attempt)
  all_goals rfl

/-- Settles O44: the rows by number, and the two phases each in and out of their own. -/
theorem rowPhases : Obligations.RowPhases := by
  unfold Obligations.RowPhases
  refine ⟨⟨rfl, rfl, rfl, rfl, rfl, rfl⟩, fun s => ⟨fun req attempt erasing => ?_, fun req attempt writing => ?_,
    exec_rowEraseDone_of_otherPhase, exec_rowWriteDone_of_otherPhase⟩⟩
  · show execRowEraseDone s = _
    simp only [execRowEraseDone, erasing]; rfl
  · show execRowWriteDone s = _
    simp only [execRowWriteDone, writing]; rfl

/-! ### The gate unit's events -/

theorem State.reached_iff (s : State) (deadline : Word) : s.reached deadline = true ↔ deadline = s.now := by
  simp [State.reached]

/-- A channel that is not in GUARD with its deadline at now is left alone (log 4). -/
theorem State.expireGuard_of_notDue {s : State} {ch : Channel} (notDue : (s.chan ch).state ≠ .guard s.now) :
    s.expireGuard ch = s := by
  unfold State.expireGuard
  split
  · rename_i deadline guarding
    rw [if_neg]
    rw [State.reached_iff]
    rintro rfl
    exact notDue guarding
  all_goals rfl

/-- A guard deadline that is reached opens the channel and reports IDLE (R76). -/
theorem State.expireGuard_of_due {s : State} {ch : Channel} (due : (s.chan ch).state = .guard s.now) :
    s.expireGuard ch = (s.setChan ch { s.chan ch with state := .idle }).reportIdle ch := by
  simp only [State.expireGuard, due, s.reached_iff, if_pos]

theorem State.findRecord_setChan (s : State) (ch : Channel) (c : GateChannel) (key : Word) :
    (s.setChan ch c).findRecord key = s.findRecord key := rfl

/-- The level a channel takes, and the state it takes with it (R77). -/
theorem GateChannel.takeGinh_eq {c : GateChannel} (level : Bool) (bound : c.state ≠ .unbound) :
    c.takeGinh level = { c with
      ginh := level
      state := if c.state = .high ∨ c.state = .heldLow then (if level then .heldLow else .high) else c.state } := by
  obtain ⟨key, guard, state, ginh⟩ := c
  cases state <;> first | rfl | exact absurd rfl bound

theorem GateChannel.takeGinh_of_unbound {c : GateChannel} (level : Bool) (unbound : c.state = .unbound) :
    c.takeGinh level = c := by
  simp only [GateChannel.takeGinh, unbound]

theorem State.setChan_self (s : State) (ch : Channel) : s.setChan ch (s.chan ch) = s := by
  simp only [State.setChan, State.chan, Fin.getElem_fin, Vector.set_getElem_self]

theorem exec_ginhChange_of_inReset {s : State} (ch : Channel) (level : Bool) (inReset : s.device = .inReset) :
    exec (.ginhChange ch level) s = .next { s with ginhPin := level } := by
  show execGinhChange ch level s = _
  simp only [execGinhChange, inReset]

theorem exec_ginhChange_of_running {s : State} (ch : Channel) (level : Bool) (running : s.device ≠ .inReset) :
    exec (.ginhChange ch level) s =
      .next ({ s with ginhPin := level }.setChan ch ((s.chan ch).takeGinh level)) := by
  show execGinhChange ch level s = _
  unfold execGinhChange
  split
  · rename_i inReset; exact absurd inReset running
  all_goals rfl

/-- Settles O23: the guard deadline due or not, and GINH at a channel that takes it or not. -/
theorem gateEvents : Obligations.GateEvents := by
  unfold Obligations.GateEvents
  intro s ch level idle
  refine ⟨fun notDue => ?notDue, fun ready due => ?due, fun untaken => ?untaken, fun running bound => ?taken⟩
  case notDue =>
    show execGuardDeadline ch s = _
    unfold execGuardDeadline
    split
    · rename_i ready
      rw [State.expireGuard_of_notDue (notDue.resolve_left (fun h => h ready))]
    · rfl
  case due =>
    have row : exec (.guardDeadline ch) s = .next (idle.reportIdle ch) := by
      show execGuardDeadline ch s = _
      rw [execGuardDeadline, if_pos ready, State.expireGuard_of_due due]
    have key : (idle.chan ch).key = (s.chan ch).key := by simp [idle]
    rw [row, State.reportIdle, key, State.findRecord_setChan]
    exact ⟨fun none => by rw [none], fun i found => by rw [found]⟩
  case untaken =>
    by_cases inReset : s.device = .inReset
    · exact exec_ginhChange_of_inReset ch level inReset
    · rw [exec_ginhChange_of_running ch level inReset,
        GateChannel.takeGinh_of_unbound level (untaken.resolve_left inReset)]
      exact congrArg _ (State.setChan_self { s with ginhPin := level } ch)
  case taken =>
    rw [exec_ginhChange_of_running ch level running, GateChannel.takeGinh_eq level bound]

end Sys2Proof.Machine
end

section
/-! What the claim engine finds, and when a request or head is admissible (R1 to R11, R19): each search as the
first index with its property, each test by what it reads. -/

namespace Sys2Proof.Machine

/-! ### The record of a key -/

theorem State.findRecord_eq_some_iff {s : State} {key : Word} {i : RecIx} :
    s.findRecord key = some i ↔ (∃ r, s.record i = some r ∧ r.key = key) ∧
      ∀ j, j < i → ∀ r' ∈ s.record j, r'.key ≠ key := by
  have names : ∀ o : Option Record, (o.any fun r => r.key == key) = true ↔ ∃ r, o = some r ∧ r.key = key := by
    intro o; simp [Option.any_eq_true]
  have misses : ∀ o : Option Record, (o.any fun r => r.key == key) = false ↔ ∀ r ∈ o, r.key ≠ key := by
    intro o; cases o <;> simp
  simp only [State.findRecord, find?_finRange_eq_some_iff, names, misses]

/-- The record of a key is the first with that key (R3). -/
theorem State.lookRecord_eq_some_iff {s : State} {key : Word} {i : RecIx} {r : Record} :
    s.lookRecord key = some (i, r) ↔
      s.record i = some r ∧ r.key = key ∧ ∀ j, j < i → ∀ r' ∈ s.record j, r'.key ≠ key := by
  have look : s.lookRecord key = some (i, r) ↔ s.findRecord key = some i ∧ s.record i = some r := by
    unfold State.lookRecord
    cases s.findRecord key with
    | none => simp
    | some k =>
      simp only [Option.map_eq_some_iff, Prod.mk.injEq, Option.some.injEq]
      constructor
      · rintro ⟨r', stands, rfl, rfl⟩; exact ⟨rfl, stands⟩
      · rintro ⟨rfl, stands⟩; exact ⟨r, stands, rfl, rfl⟩
  rw [look, State.findRecord_eq_some_iff]
  constructor
  · rintro ⟨⟨⟨r', stands', rfl⟩, earlier⟩, stands⟩
    cases stands'.symm.trans stands
    exact ⟨stands, rfl, earlier⟩
  · rintro ⟨stands, rfl, earlier⟩
    exact ⟨⟨⟨r, stands, rfl⟩, earlier⟩, stands⟩

theorem State.findRecord_eq_some_iff_lookRecord {s : State} {key : Word} {i : RecIx} :
    s.findRecord key = some i ↔ ∃ r, s.lookRecord key = some (i, r) := by
  rw [State.findRecord_eq_some_iff]
  constructor
  · rintro ⟨⟨r, stands, named⟩, earlier⟩
    exact ⟨r, State.lookRecord_eq_some_iff.mpr ⟨stands, named, earlier⟩⟩
  · rintro ⟨r, look⟩
    obtain ⟨stands, named, earlier⟩ := State.lookRecord_eq_some_iff.mp look
    exact ⟨⟨r, stands, named⟩, earlier⟩

theorem State.lookRecord_record {s : State} {key : Word} {i : RecIx} {r : Record}
    (look : s.lookRecord key = some (i, r)) : s.record i = some r :=
  (State.lookRecord_eq_some_iff.mp look).1

theorem State.lookRecord_key {s : State} {key : Word} {i : RecIx} {r : Record}
    (look : s.lookRecord key = some (i, r)) : r.key = key :=
  (State.lookRecord_eq_some_iff.mp look).2.1

theorem State.holdingOf_eq_some_iff {s : State} {p : Port} {key : Word} {i : RecIx} {r : Record} {h : Holding} :
    s.holdingOf p key = some (i, r, h) ↔ s.lookRecord key = some (i, r) ∧ r.holder p = some h := by
  unfold State.holdingOf
  cases s.lookRecord key with
  | none => simp
  | some x =>
    obtain ⟨j, q⟩ := x
    simp only [Option.map_eq_some_iff, Prod.mk.injEq, Option.some.injEq]
    constructor
    · rintro ⟨h', held, rfl, rfl, rfl⟩; exact ⟨⟨rfl, rfl⟩, held⟩
    · rintro ⟨⟨rfl, rfl⟩, held⟩; exact ⟨h, held, rfl, rfl, rfl⟩

theorem State.waitingOf_eq_some_iff {s : State} {p : Port} {key : Word} {i : RecIx} {r : Record} {w : Waiter} :
    s.waitingOf p key = some (i, r, w) ↔ s.lookRecord key = some (i, r) ∧ r.waiter p = some w := by
  unfold State.waitingOf
  cases s.lookRecord key with
  | none => simp
  | some x =>
    obtain ⟨j, q⟩ := x
    simp only [Option.map_eq_some_iff, Prod.mk.injEq, Option.some.injEq]
    constructor
    · rintro ⟨h', held, rfl, rfl, rfl⟩; exact ⟨⟨rfl, rfl⟩, held⟩
    · rintro ⟨⟨rfl, rfl⟩, held⟩; exact ⟨w, held, rfl, rfl, rfl⟩

/-! ### A record's entries -/

theorem Record.waiter_eq_some_iff {r : Record} {p : Port} {w : Waiter} :
    r.waiter p = some w ↔ w.port = p ∧
      ∃ before after, r.waiters = before ++ w :: after ∧ ∀ v ∈ before, v.port ≠ p := by
  simp [Record.waiter, List.find?_eq_some_iff_append]

theorem Record.waiter_mem {r : Record} {p : Port} {w : Waiter} (found : r.waiter p = some w) :
    w ∈ r.waiters := List.mem_of_find?_eq_some found

theorem Record.waiter_port {r : Record} {p : Port} {w : Waiter} (found : r.waiter p = some w) : w.port = p :=
  (Record.waiter_eq_some_iff.mp found).1

theorem Record.noHolder_iff (r : Record) : r.noHolder = true ↔ ∀ q, r.holder q = none := by
  simp [Record.noHolder]

theorem Record.noExclusive_iff (r : Record) :
    r.noExclusive = true ↔ ∀ q h, r.holder q = some h → h.mode = .shared := by
  have shared : ∀ o : Option Holding, (!o.any fun h => h.mode == .exclusive) = true ↔
      ∀ h, o = some h → h.mode = .shared := by
    rintro (_ | ⟨m, _, _, _⟩)
    · simp
    · cases m <;> simp
  simp only [Record.noExclusive, List.all_eq_true, List.mem_finRange, true_implies, shared]

theorem Record.isEmpty_iff (r : Record) : r.isEmpty = true ↔ (∀ q, r.holder q = none) ∧ r.waiters = [] := by
  simp [Record.isEmpty, Record.noHolder_iff]

/-! ### The channel of a key -/

theorem State.boundChannel_eq_some_iff {s : State} {key : Word} {ch : Channel} :
    s.boundChannel key = some ch ↔ key ≠ 0#32 ∧ (s.cfg.effective.chan ch).key = key ∧
      ∀ c, c < ch → (s.cfg.effective.chan c).key ≠ key := by
  unfold State.boundChannel
  rw [find?_finRange_eq_some_iff]
  by_cases zero : key = 0#32 <;> simp [zero]

/-! ### Admission -/

/-- Condition 2: EXCLUSIVE beside no holding, SHARED beside no EXCLUSIVE one (R11). -/
theorem Record.compatible_iff (r : Record) (m : Mode) :
    r.compatible m = true ↔ (m = .exclusive → ∀ q, r.holder q = none) ∧
      (m = .shared → ∀ q h, r.holder q = some h → h.mode = .shared) := by
  cases m
  · simp [Record.compatible, Record.noHolder_iff]
  · simp [Record.compatible, Record.noExclusive_iff]

/-- Condition 3: for EXCLUSIVE the channel of a bound key is in IDLE (R11). -/
theorem State.gateOpen_iff (s : State) (key : Word) (m : Mode) :
    s.gateOpen key m = true ↔ (m = .exclusive → ∀ ch, s.boundChannel key = some ch → (s.chan ch).state = .idle) := by
  unfold State.gateOpen
  cases m <;> cases s.boundChannel key <;> simp

theorem TokenUnit.available_iff (t : TokenUnit) :
    t.available = true ↔ t.G < t.F ∧ (t.state = .normal ∨ t.state = .advancing) := by
  simp [TokenUnit.available]

theorem State.admissible_iff (s : State) (r : Record) (m : Mode) :
    s.admissible r m = true ↔
      r.compatible m = true ∧ s.gateOpen r.key m = true ∧ s.tok.available = true := by
  simp [State.admissible, and_assoc]

/-! ### What an ACQUIRE asks for, and where it stands -/

theorem modeOfCode_eq_some_iff (b : Byte) (m : Mode) :
    modeOfCode b = some m ↔ b = 1#8 ∧ m = .exclusive ∨ b = 2#8 ∧ m = .shared := by
  unfold modeOfCode
  split
  · cases m <;> simp
  · cases m <;> simp
  · rename_i other1 other2
    simp only [reduceCtorEq, false_iff]
    rintro (⟨rfl, -⟩ | ⟨rfl, -⟩)
    · exact other1 rfl
    · exact other2 rfl

theorem waitInRange_iff_bound (set : PortSettings) (wait : Half) :
    waitInRange set wait = true ↔ wait ≤ set.maxWait := by simp [waitInRange]

theorem acquireParams_eq_ok_iff (set : PortSettings) (key : Word) (mode : Byte) (lease wait : Half) (m : Mode) :
    acquireParams set key mode lease wait = .ok m ↔
      set.rights.acquire = true ∧ key ≠ 0#32 ∧
      (mode = 1#8 ∧ m = .exclusive ∨ mode = 2#8 ∧ m = .shared) ∧
      10#16 ≤ lease ∧ lease ≤ set.maxLease ∧ wait ≤ set.maxWait ∧
      set.classMask.getLsbD (key >>> 28).toNat = true := by
  rw [← modeOfCode_eq_some_iff]
  unfold acquireParams
  cases right : set.rights.acquire with
  | false => simp
  | true =>
    cases modeOfCode mode with
    | none => simp
    | some m' =>
      have bounds : (key = 0#32 ∨ (!leaseInRange set lease) = true ∨ (!waitInRange set wait) = true) ↔
          ¬(key ≠ 0#32 ∧ 10#16 ≤ lease ∧ lease ≤ set.maxLease ∧ wait ≤ set.maxWait) := by
        rw [Bool.not_eq_true', Bool.not_eq_true', ← Bool.not_eq_true, ← Bool.not_eq_true, leaseInRange_iff_bounds,
          waitInRange_iff_bound]
        tauto
      simp only [Bool.not_true, Bool.false_eq_true, if_false, bounds]
      by_cases inRange : key ≠ 0#32 ∧ 10#16 ≤ lease ∧ lease ≤ set.maxLease ∧ wait ≤ set.maxWait
      · obtain ⟨key_ne, low, high, wait_le⟩ := inRange
        rw [if_neg (not_not_intro ⟨key_ne, low, high, wait_le⟩)]
        change (if (!set.classMask.getLsbD (key >>> 28).toNat) = true then _ else _) = _ ↔ _
        cases set.classMask.getLsbD (key >>> 28).toNat <;> simp only [Bool.not_true, Bool.not_false, if_true,
          Bool.false_eq_true, if_false, reduceCtorEq, Except.ok.injEq, and_false, Option.some.injEq]
        exact ⟨fun same => ⟨trivial, key_ne, same, low, high, wait_le, trivial⟩, fun h => h.2.2.1⟩
      · rw [if_pos inRange]
        simp only [reduceCtorEq, false_iff]
        rintro ⟨-, key_ne, -, low, high, wait_le, -⟩
        exact inRange ⟨key_ne, low, high, wait_le⟩

theorem State.lowestFreeSlot_eq_some_iff {s : State} {p : Port} {k : SlotIx} :
    s.lowestFreeSlot p = some k ↔ s.slot p k = .free ∧ ∀ j, j < k → s.slot p j ≠ .free := by
  simp [State.lowestFreeSlot, find?_finRange_eq_some_iff]

theorem State.lowestFreeIndex_eq_some_iff {s : State} {i : RecIx} :
    s.lowestFreeIndex = some i ↔ s.record i = none ∧ ∀ j, j < i → (s.record j).isSome = true := by
  simp [State.lowestFreeIndex, find?_finRange_eq_some_iff, Option.isSome_iff_ne_none]

/-- The index and record of a key: its own, or an empty one at the lowest free index (R8). -/
theorem State.placeOf_eq_some_iff {s : State} {key : Word} {i : RecIx} {r : Record} :
    s.placeOf key = some (i, r) ↔ s.lookRecord key = some (i, r) ∨
      s.lookRecord key = none ∧ r = Record.fresh key ∧ s.record i = none ∧
        ∀ j, j < i → (s.record j).isSome = true := by
  cases found : s.findRecord key with
  | some k =>
    have own : s.placeOf key = s.lookRecord key := by simp only [State.placeOf, State.lookRecord, found]
    have occurs : s.lookRecord key ≠ none := by
      rw [Ne, State.lookRecord_eq_none_iff, found]
      exact Option.some_ne_none k
    rw [own]
    exact ⟨Or.inl, fun h => h.resolve_right fun h' => occurs h'.1⟩
  | none =>
    have nothing : s.lookRecord key = none := by rw [State.lookRecord_eq_none_iff, found]
    rw [← and_assoc, ← and_assoc, and_assoc, ← State.lowestFreeIndex_eq_some_iff]
    simp only [State.placeOf, found, nothing, Option.map_eq_some_iff, Prod.mk.injEq, reduceCtorEq, false_or, true_and]
    constructor
    · rintro ⟨j, free, rfl, rfl⟩; exact ⟨rfl, free⟩
    · rintro ⟨rfl, free⟩; exact ⟨i, free, rfl, rfl⟩

/-- Check 4 passes exactly where the record of the key, if there is one, does not name the port (R20). -/
theorem State.duplicate_eq_none_iff {s : State} {p : Port} {key : Word} :
    s.duplicate p key = none ↔
      ∀ i r, s.lookRecord key = some (i, r) → r.holder p = none ∧ r.waiter p = none := by
  unfold State.duplicate
  rw [State.findRecord_bind_record]
  cases look : s.lookRecord key with
  | none => simp
  | some x =>
    obtain ⟨j, r'⟩ := x
    have names : (∀ i r, some (j, r') = some (i, r) → r.holder p = none ∧ r.waiter p = none) ↔
        r'.holder p = none ∧ r'.waiter p = none :=
      ⟨fun h => h j r' rfl, fun h i r same => by cases same; exact h⟩
    rw [names, Option.map_some]
    dsimp only
    cases r'.holder p <;> cases r'.waiter p <;> simp

/-- Checks 4 to 7 with what they find (R20). -/
theorem State.acquirePlace_eq_ok_iff {s : State} {p : Port} {key : Word} {pl : Place} :
    s.acquirePlace p key = .ok pl ↔ s.duplicate p key = none ∧ s.lowestFreeSlot p = some pl.slot ∧
      s.placeOf key = some (pl.index, pl.record) ∧ (s.tok.state = .normal ∨ s.tok.state = .advancing) := by
  obtain ⟨index, record, slot⟩ := pl
  unfold State.acquirePlace
  cases s.duplicate p key with
  | some st => simp
  | none =>
    cases s.lowestFreeSlot p with
    | none => simp
    | some k =>
      cases s.placeOf key with
      | none => simp
      | some x =>
        have same : Place.mk x.1 x.2 k = ⟨index, record, slot⟩ ↔ k = slot ∧ x = (index, record) := by
          simp only [Place.mk.injEq, Prod.ext_iff]; tauto
        cases s.tok.state <;> simp [same]

theorem Record.holder_fresh (key : Word) (q : Port) : (Record.fresh key).holder q = none := by
  simp [Record.holder, Record.fresh]

theorem Record.waiters_fresh (key : Word) : (Record.fresh key).waiters = [] := rfl

theorem State.acquirePlace_eq_ok_iff_found {s : State} {p : Port} {key : Word} {pl : Place} :
    s.acquirePlace p key = .ok pl ↔
      s.slot p pl.slot = .free ∧ (∀ k, k < pl.slot → s.slot p k ≠ .free) ∧
      (s.lookRecord key = some (pl.index, pl.record) ∧ pl.record.holder p = none ∧
          pl.record.waiter p = none ∨
        s.lookRecord key = none ∧ pl.record = Record.fresh key ∧ s.record pl.index = none ∧
          ∀ j, j < pl.index → (s.record j).isSome = true) ∧
      (s.tok.state = .normal ∨ s.tok.state = .advancing) := by
  rw [State.acquirePlace_eq_ok_iff, State.lowestFreeSlot_eq_some_iff, State.placeOf_eq_some_iff,
    State.duplicate_eq_none_iff]
  constructor
  · rintro ⟨single, ⟨free, lowest⟩, place, state⟩
    refine ⟨free, lowest, ?_, state⟩
    rcases place with own | fresh
    · exact Or.inl ⟨own, single _ _ own⟩
    · exact Or.inr fresh
  · rintro ⟨free, lowest, place, state⟩
    rcases place with ⟨own, unheld, unwaiting⟩ | fresh
    · refine ⟨fun i r look => ?_, ⟨free, lowest⟩, Or.inl own, state⟩
      cases own.symm.trans look
      exact ⟨unheld, unwaiting⟩
    · refine ⟨fun i r look => ?_, ⟨free, lowest⟩, Or.inr fresh, state⟩
      cases fresh.1.symm.trans look

/-- Settles O11: each search and each test by its own lemma. -/
theorem searchAdmissionAndPlace : Obligations.SearchAdmissionAndPlace := by
  unfold Obligations.SearchAdmissionAndPlace
  refine ⟨fun s key p i r => ?found, fun s r m => ?admission, acquireParams_eq_ok_iff, fun s p key pl =>
    State.acquirePlace_eq_ok_iff_found⟩
  case found =>
    exact ⟨State.lookRecord_eq_some_iff, State.findRecord_eq_some_iff_lookRecord,
      fun h => State.holdingOf_eq_some_iff, fun w => State.waitingOf_eq_some_iff,
      fun w => Record.waiter_eq_some_iff, r.noHolder_iff, r.isEmpty_iff, rfl,
      fun ch => State.boundChannel_eq_some_iff, rfl, fun k => rfl⟩
  case admission =>
    intro compatible gateOpen
    refine ⟨r.compatible_iff m, fun key => s.gateOpen_iff key m, ?_⟩
    rw [State.admissible_iff, r.compatible_iff, s.gateOpen_iff, TokenUnit.available_iff]

end Sys2Proof.Machine
end

section
/-! Grants (R12 to R14, R21, R54 to R56): what a draw does to the token unit and the store, what a grant does
to record, slot, port and channel, and where a pass stops. -/

namespace Sys2Proof.Machine

/-! ### The draw of a token -/

/-- The new floor of an advance, in the words of R56. -/
theorem nextFloor_eq (F : Word) :
    nextFloor F = if 4294967295 < F.toNat + 256 then maxWord else F + 256#32 := by
  have bound := F.isLt
  have spent : maxWord - F < 256#32 ↔ 4294967295 < F.toNat + 256 := by
    rw [BitVec.lt_def, BitVec.toNat_sub, show maxWord.toNat = 4294967295 from rfl, BitVec.toNat_ofNat]
    omega
  simp only [nextFloor, spent]

/-- What an advance that is requested asks for, and where it goes (R56, R158). -/
theorem State.requestAdvance_eq (s : State) :
    s.requestAdvance = { s with
      tok := { s.tok with state := .advancing }
      store := if s.store.engine = .idle ∧ s.supply.low = false then
          { s.store with advanceInput := none, engine := .busy s.advanceRequest .first .erase }
        else { s.store with advanceInput := some s.advanceRequest } } := by
  unfold State.requestAdvance State.kickEngine
  cases engine : s.store.engine with
  | busy req attempt phase => simp only [reduceCtorEq, false_and, if_false]
  | idle =>
    cases low : s.supply.low with
    | true => simp only [if_true, reduceCtorEq, and_false, if_false]
    | false => simp [Store.start]

/-- The three ends of a draw (R54, R56, R62). -/
theorem State.drawToken_eq (s : State) : s.drawToken =
    if s.tok.G + 1#32 = s.tok.F ∧ s.tok.F = 4294967295#32 then
      { s with tok := { s.tok with G := s.tok.G + 1#32, state := .tokensSpent }, faultSweep := some 0 }
    else if s.tok.state = .normal ∧ s.tok.F - (s.tok.G + 1#32) ≤ 32#32 ∧ s.tok.F ≠ 4294967295#32 then
      State.requestAdvance { s with tok := { s.tok with G := s.tok.G + 1#32 } }
    else { s with tok := { s.tok with G := s.tok.G + 1#32 } } := by
  simp only [State.drawToken, State.lowWaterTest, TokenUnit.lowWater, maxWord, Bool.and_eq_true, decide_eq_true_eq,
    bne_iff_ne]
  rfl

/-- A draw, as TokenDrawn states it. -/
theorem State.tokenDrawn_drawToken (s : State) : TokenDrawn s s.drawToken := by
  unfold TokenDrawn
  rw [State.drawToken_eq]
  dsimp only
  by_cases spent : s.tok.G + 1#32 = s.tok.F ∧ s.tok.F = 4294967295#32
  · simp only [if_pos spent, and_self]
  · by_cases low : s.tok.state = .normal ∧ s.tok.F - (s.tok.G + 1#32) ≤ 32#32 ∧ s.tok.F ≠ 4294967295#32
    · simp only [if_neg spent, if_pos low, State.requestAdvance_eq, State.advanceRequest, nextFloor_eq, true_and]
      rfl
    · simp only [if_neg spent, if_neg low, and_self]

/-- TokenDrawn speaks of the token unit, the fault report and the store alone. -/
theorem TokenDrawn.of_same {s t u : State} (drawn : TokenDrawn s t) (tok : u.tok = t.tok)
    (sweep : u.faultSweep = t.faultSweep) (store : u.store = t.store) : TokenDrawn s u := by
  unfold TokenDrawn at drawn ⊢
  rwa [tok, sweep, store]

/-! ### Reports to the gate unit -/

section
variable (s : State) (key : Word) (mode : Mode)

@[simp] theorem State.reportStart_tok : (s.reportStart key mode).tok = s.tok := by
  unfold State.reportStart; split <;> rfl
@[simp] theorem State.reportStart_store : (s.reportStart key mode).store = s.store := by
  unfold State.reportStart; split <;> rfl
@[simp] theorem State.reportStart_faultSweep : (s.reportStart key mode).faultSweep = s.faultSweep := by
  unfold State.reportStart; split <;> rfl
@[simp] theorem State.reportStart_record (j : RecIx) : (s.reportStart key mode).record j = s.record j := by
  unfold State.reportStart; split <;> rfl
@[simp] theorem State.reportStart_slot (q : Port) (k : SlotIx) :
    (s.reportStart key mode).slot q k = s.slot q k := by
  unfold State.reportStart; split <;> rfl
@[simp] theorem State.reportStart_port (q : Port) : (s.reportStart key mode).port q = s.port q := by
  unfold State.reportStart; split <;> rfl

@[simp] theorem State.reportEnd_tok : (s.reportEnd key mode).tok = s.tok := by
  unfold State.reportEnd; split <;> rfl
@[simp] theorem State.reportEnd_store : (s.reportEnd key mode).store = s.store := by
  unfold State.reportEnd; split <;> rfl
@[simp] theorem State.reportEnd_faultSweep : (s.reportEnd key mode).faultSweep = s.faultSweep := by
  unfold State.reportEnd; split <;> rfl
@[simp] theorem State.reportEnd_record (j : RecIx) : (s.reportEnd key mode).record j = s.record j := by
  unfold State.reportEnd; split <;> rfl
@[simp] theorem State.reportEnd_slot (q : Port) (k : SlotIx) : (s.reportEnd key mode).slot q k = s.slot q k := by
  unfold State.reportEnd; split <;> rfl
@[simp] theorem State.reportEnd_port (q : Port) : (s.reportEnd key mode).port q = s.port q := by
  unfold State.reportEnd; split <;> rfl

/-- A start report reaches the channel of an EXCLUSIVE holding's key (R30). -/
theorem State.reportStart_chan (ch : Channel) :
    (s.reportStart key mode).chan ch =
      if mode = .exclusive ∧ s.boundChannel key = some ch then (s.chan ch).startReport else s.chan ch := by
  cases mode with
  | shared => simp [State.reportStart]
  | exclusive =>
    cases bound : s.boundChannel key with
    | none => simp [State.reportStart, bound]
    | some c =>
      simp only [State.reportStart, bound, State.chan_setChan, true_and, Option.some.injEq, eq_comm (a := ch)]
      split
      · subst_vars; rfl
      · rfl

/-- An end report reaches the channel of an EXCLUSIVE holding's key (R30). -/
theorem State.reportEnd_chan (ch : Channel) :
    (s.reportEnd key mode).chan ch =
      if mode = .exclusive ∧ s.boundChannel key = some ch then (s.chan ch).endReport s.now else s.chan ch := by
  cases mode with
  | shared => simp [State.reportEnd]
  | exclusive =>
    cases bound : s.boundChannel key with
    | none => simp [State.reportEnd, bound]
    | some c =>
      simp only [State.reportEnd, bound, State.chan_setChan, true_and, Option.some.injEq, eq_comm (a := ch)]
      split
      · subst_vars; rfl
      · rfl

end

/-- A start report on an open channel (R74). -/
theorem GateChannel.startReport_of_idle {c : GateChannel} (idle : c.state = .idle) :
    c.startReport = { c with state := if c.ginh then .heldLow else .high } := by
  simp only [GateChannel.startReport, idle]

/-- An end report is what R75 says of it. -/
theorem GateChannel.endReport_eq_ended (c : GateChannel) (now : Word) : c.endReport now = c.ended now := by
  obtain ⟨key, guard, state, ginh⟩ := c
  cases state <;> rfl

/-! ### A holding added to a record -/

section
variable (s : State) (i : RecIx) (r : Record) (p : Port) (mode : Mode) (lease : Half) (slot : SlotIx)

theorem State.addHolding_tok : (s.addHolding i r p mode lease slot).tok = s.drawToken.tok := rfl
theorem State.addHolding_store : (s.addHolding i r p mode lease slot).store = s.drawToken.store := rfl
theorem State.addHolding_faultSweep :
    (s.addHolding i r p mode lease slot).faultSweep = s.drawToken.faultSweep := rfl

theorem State.addHolding_record (j : RecIx) :
    (s.addHolding i r p mode lease slot).record j =
      if j = i then some (r.setHolder p (some ⟨mode, s.tok.G, s.now + lease.setWidth 32, slot⟩))
      else s.record j := by
  unfold State.addHolding
  dsimp only
  rw [State.setSlot_record, State.record_setRecord, s.drawToken_same.1.record]

theorem State.addHolding_slot (q : Port) (k : SlotIx) :
    (s.addHolding i r p mode lease slot).slot q k =
      if q = p ∧ k = slot then .holding r.key mode s.tok.G (s.now + lease.setWidth 32) else s.slot q k := by
  unfold State.addHolding
  dsimp only
  rw [State.slot_setSlot, State.setRecord_slot, s.drawToken_same.1.slot]

theorem State.addHolding_port (q : Port) : (s.addHolding i r p mode lease slot).port q = s.port q :=
  s.drawToken_same.1.port q

theorem State.addHolding_chan (ch : Channel) :
    (s.addHolding i r p mode lease slot).chan ch = s.chan ch := s.drawToken_same.1.chan ch

theorem State.addHolding_boundChannel (key : Word) :
    (s.addHolding i r p mode lease slot).boundChannel key = s.boundChannel key :=
  State.boundChannel_of_cfg (s.addHolding_frame i r p mode lease slot).cfg key

end

/-- The channel of a holding that starts: from IDLE, where admission has found it (R11, R74). -/
theorem State.reportStart_chan_of_admissible {s u : State} {key : Word} {mode : Mode}
    (gate : s.gateOpen key mode = true) (chans : ∀ ch, u.chan ch = s.chan ch)
    (bound : u.boundChannel key = s.boundChannel key) (ch : Channel) :
    (u.reportStart key mode).chan ch =
      if mode = .exclusive ∧ s.boundChannel key = some ch then
        { s.chan ch with state := if (s.chan ch).ginh then .heldLow else .high }
      else s.chan ch := by
  rw [State.reportStart_chan, bound, chans]
  split
  · rename_i starts
    exact GateChannel.startReport_of_idle ((s.gateOpen_iff key mode).mp gate starts.1 ch starts.2)
  · rfl

/-! ### The grant of a head -/

section
variable (s : State) (i : RecIx) (r : Record) (w : Waiter) (rest : List Waiter)

theorem State.grantHead_tokenDrawn : TokenDrawn s (s.grantHead i r w rest) := by
  refine s.tokenDrawn_drawToken.of_same ?_ ?_ ?_
  · exact State.reportStart_tok _ _ _
  · exact State.reportStart_faultSweep _ _ _
  · exact State.reportStart_store _ _ _

theorem State.grantHead_slot (q : Port) (k : SlotIx) :
    (s.grantHead i r w rest).slot q k =
      if q = w.port ∧ k = w.slot then .holding r.key w.mode s.tok.G (s.now + w.lease.setWidth 32)
      else s.slot q k := by
  unfold State.grantHead
  dsimp only
  rw [State.reportStart_slot, State.postNotice_slot, State.addHolding_slot]

theorem State.grantHead_port (q : Port) :
    (s.grantHead i r w rest).port q = if q = w.port then
      { s.port q with
        notices := (s.port q).notices ++
          [⟨(s.port q).seq, .granted, r.key, w.slot, s.tok.G, .none, s.now⟩]
        seq := (s.port q).seq + 1#8 } else s.port q := by
  have now : (s.addHolding i { r with waiters := rest } w.port w.mode w.lease w.slot).now = s.now :=
    (s.addHolding_frame _ _ _ _ _ _).now
  unfold State.grantHead
  dsimp only
  rw [State.reportStart_port, State.port_postNotice]
  simp only [State.addHolding_port, now]
  split
  · subst_vars; rfl
  · rfl

theorem State.grantHead_chan (gate : s.gateOpen r.key w.mode = true) (ch : Channel) :
    (s.grantHead i r w rest).chan ch =
      if w.mode = .exclusive ∧ s.boundChannel r.key = some ch then
        { s.chan ch with state := if (s.chan ch).ginh then .heldLow else .high }
      else s.chan ch :=
  State.reportStart_chan_of_admissible (u := (s.addHolding i { r with waiters := rest } w.port w.mode w.lease
    w.slot).postNotice w.port .granted r.key w.slot s.tok.G .none) gate
    (s.addHolding_chan i { r with waiters := rest } w.port w.mode w.lease w.slot)
    (s.addHolding_boundChannel i { r with waiters := rest } w.port w.mode w.lease w.slot r.key) ch

end

/-- Settles O19: the fields of a grant one by one; the channel is in IDLE by the admission of the head. -/
theorem grantHeadEffect : Obligations.GrantHeadEffect := by
  unfold Obligations.GrantHeadEffect
  intro s i r w rest _ _ admissible
  exact ⟨s.grantHead_frame i r w rest, s.grantHead_tokenDrawn i r w rest,
    fun j => s.grantHead_record i j r w rest, s.grantHead_slot i r w rest, s.grantHead_port i r w rest,
    s.grantHead_chan i r w rest ((s.admissible_iff r w.mode).mp admissible).2.1⟩

/-! ### The pass, one head at a time -/

section
variable {s : State} {i : RecIx} {r : Record} {w : Waiter} {rest : List Waiter}

theorem Record.isEmpty_of_waiters (waits : r.waiters = w :: rest) : r.isEmpty = false := by
  simp [Record.isEmpty, waits]

theorem State.retire_eq (s : State) (i : RecIx) {r : Record} (stands : s.record i = some r) :
    s.retire i = if r.isEmpty then s.setRecord i none else s := by
  simp [State.retire, stands]

theorem State.retire_of_nonempty (h : ∀ r, s.record i = some r → r.isEmpty = false) : s.retire i = s := by
  unfold State.retire
  cases stands : s.record i with
  | none => simp
  | some r => simp [h r stands]

/-- A pass on an admissible head grants it and goes on (R13). -/
theorem State.grantPass_of_admissible (stands : s.record i = some r) (waits : r.waiters = w :: rest)
    (admissible : s.admissible r w.mode = true) : s.grantPass i = (s.grantHead i r w rest).grantPass i := by
  have left : (s.grantHead i r w rest).waiterCount i = rest.length := by
    simp [State.waiterCount, State.grantHead_record, Record.granted]
  have count : s.waiterCount i = rest.length + 1 := by simp [State.waiterCount, stands, waits]
  rw [State.grantPass, State.grantPass, left, count]
  simp only [State.grantHeads, stands, waits, admissible, if_true]

/-- The record at which a pass has stopped. -/
def Record.reservedHead (r : Record) (w : Waiter) (rest : List Waiter) : Record :=
  { r with waiters := { w with state := .reserved } :: rest }

/-- What the head at which a pass stops leaves of its record (R14). -/
theorem State.markReserved_record (stands : s.record i = some r) (waits : r.waiters = w :: rest) (j : RecIx) :
    (s.markReserved i r w rest).record j =
      if j = i ∧ r.compatible w.mode = true then some (r.reservedHead w rest) else s.record j := by
  unfold State.markReserved
  cases compatible : r.compatible w.mode with
  | false => simp
  | true =>
    rw [if_pos rfl]
    dsimp only
    cases state : w.state with
    | queued =>
      dsimp only
      rw [State.setSlot_record, State.record_setRecord, s.noteDemand_same.record]
      simp [Record.reservedHead]
    | reserved =>
      have same : r.reservedHead w rest = r := by
        obtain ⟨key, holders, waiters⟩ := r
        cases waits
        rw [Record.reservedHead, ← state]
      rw [same]
      dsimp only
      rw [s.noteDemand_same.record]
      split
      · rename_i h; rw [h.1, stands]
      · rfl

theorem State.markReserved_record_self (stands : s.record i = some r) (waits : r.waiters = w :: rest) :
    ∃ w', w'.mode = w.mode ∧ (r.compatible w.mode = true → w'.state = .reserved) ∧
      (s.markReserved i r w rest).record i = some { r with waiters := w' :: rest } := by
  rw [State.markReserved_record stands waits]
  cases compatible : r.compatible w.mode with
  | false =>
    refine ⟨w, rfl, by simp, ?_⟩
    rw [← waits]
    simpa using stands
  | true => exact ⟨{ w with state := .reserved }, rfl, fun _ => rfl, by simp [Record.reservedHead]⟩

/-- A pass stops at a head that is not admissible (R14). -/
theorem State.grantPass_of_stopped (stands : s.record i = some r) (waits : r.waiters = w :: rest)
    (stopped : s.admissible r w.mode = false) : s.grantPass i = s.markReserved i r w rest := by
  have count : s.waiterCount i = rest.length + 1 := by simp [State.waiterCount, stands, waits]
  have heads : State.grantHeads (s.waiterCount i) s i = s.markReserved i r w rest := by
    rw [count]
    simp only [State.grantHeads, stands, waits, stopped, Bool.false_eq_true, if_false]
  rw [State.grantPass, heads]
  refine State.retire_of_nonempty fun r' stands' => ?_
  obtain ⟨w', -, -, marked⟩ := State.markReserved_record_self stands waits
  cases marked.symm.trans stands'
  exact Record.isEmpty_of_waiters rfl

/-- Admission reads the holders and the key of a record, the channels, and G, F and the state of the token
unit. -/
theorem State.admissible_congr {s t : State} {r r' : Record} (key : r'.key = r.key)
    (holders : ∀ q, r'.holder q = r.holder q) (chans : ∀ ch, t.chan ch = s.chan ch) (cfg : t.cfg = s.cfg)
    (G : t.tok.G = s.tok.G) (F : t.tok.F = s.tok.F) (state : t.tok.state = s.tok.state) (m : Mode) :
    t.admissible r' m = s.admissible r m := by
  rw [Bool.eq_iff_iff, State.admissible_iff, State.admissible_iff, Record.compatible_iff, Record.compatible_iff,
    State.gateOpen_iff, State.gateOpen_iff, TokenUnit.available_iff, TokenUnit.available_iff, key, G, F, state,
    State.boundChannel_of_cfg cfg]
  simp only [holders, chans]

theorem State.noteDemand_eq (s : State) : s.noteDemand = { s with tok := { s.tok with
    demand := if s.tok.G = s.tok.F ∧ s.tok.state = .advancing then true else s.tok.demand } } := by
  unfold State.noteDemand
  split <;> rfl

theorem State.markReserved_tok (s : State) (i : RecIx) (r : Record) (w : Waiter) (rest : List Waiter) :
    (s.markReserved i r w rest).tok = s.tok ∨ (s.markReserved i r w rest).tok = s.noteDemand.tok := by
  unfold State.markReserved
  split
  · dsimp only
    split <;> exact Or.inr rfl
  · exact Or.inl rfl

theorem State.markReserved_chan (s : State) (i : RecIx) (r : Record) (w : Waiter) (rest : List Waiter)
    (ch : Channel) : (s.markReserved i r w rest).chan ch = s.chan ch := by
  unfold State.markReserved
  split
  · dsimp only
    split <;> exact s.noteDemand_same.chan ch
  · rfl

theorem State.admissible_markReserved (s : State) (i : RecIx) (r r' : Record) (w : Waiter) (rest : List Waiter)
    (key : r'.key = r.key) (holders : ∀ q, r'.holder q = r.holder q) (m : Mode) :
    (s.markReserved i r w rest).admissible r' m = s.admissible r m := by
  have cfg := (s.markReserved_frame i r w rest).cfg
  have chans := s.markReserved_chan i r w rest
  rcases s.markReserved_tok i r w rest with tok | tok
  · exact State.admissible_congr key holders chans cfg (by rw [tok]) (by rw [tok]) (by rw [tok]) m
  · rw [State.noteDemand_eq] at tok
    exact State.admissible_congr key holders chans cfg (by rw [tok]) (by rw [tok]) (by rw [tok]) m

/-- How a pass leaves its record, by induction on the heads it looks at (R9, R13, R14). -/
theorem State.grantPass_passDone (s : State) (i : RecIx) : (s.grantPass i).passDone i := by
  cases stands : s.record i with
  | none =>
    rw [s.grantPass_none i stands]
    intro r stands'
    cases stands.symm.trans stands'
  | some r =>
    induction waits : r.waiters generalizing s r with
    | nil =>
      rw [s.grantPass_noWaiters i r stands waits]
      intro r' stands'
      obtain ⟨before, entry⟩ := State.retire_record_some stands'
      cases stands.symm.trans before
      exact ⟨entry, fun w rest cons => by rw [waits] at cons; cases cons⟩
    | cons w rest ih =>
      cases admissible : s.admissible r w.mode with
      | true =>
        rw [State.grantPass_of_admissible stands waits admissible]
        refine ih _ (r.granted w rest s.tok.G (s.now + w.lease.setWidth 32)) ?_ rfl
        rw [State.grantHead_record, if_pos rfl]
      | false =>
        rw [State.grantPass_of_stopped stands waits admissible]
        intro r' stands'
        obtain ⟨w', mode, reserved, marked⟩ := State.markReserved_record_self stands waits
        cases marked.symm.trans stands'
        refine ⟨Record.isEmpty_of_waiters rfl, fun v vs cons => ?_⟩
        cases cons
        rw [State.admissible_markReserved s i r { r with waiters := w' :: rest } w rest rfl fun _ => rfl, mode]
        exact ⟨admissible, reserved⟩

end

/-- Settles O20: the pass one head at a time, and its end by `State.grantPass_passDone`. -/
theorem grantPassStops : Obligations.GrantPassStops := by
  unfold Obligations.GrantPassStops
  intro s i t
  refine ⟨s.grantPass_frame i, s.grantPass_record_ne i, s.grantPass_passDone i, s.grantPass_none i,
    fun r stands => ⟨fun noWaiters => ?_, fun w rest waits => ⟨fun admissible => ?_, fun incompatible => ?_,
      fun stopped compatible => ?_⟩⟩⟩
  · exact (s.grantPass_noWaiters i r stands noWaiters).trans (s.retire_eq i stands)
  · exact State.grantPass_of_admissible stands waits admissible
  · have stopped : s.admissible r w.mode = false := by simp [State.admissible, incompatible]
    exact (State.grantPass_of_stopped stands waits stopped).trans (if_neg (by simp [incompatible]))
  · intro noted
    have pass : t = s.markReserved i r w rest := State.grantPass_of_stopped stands waits stopped
    rw [pass, State.markReserved, if_pos compatible]
    have demand : noted = s.noteDemand := s.noteDemand_eq.symm
    rw [demand]
    exact ⟨fun reserved => by simp only [reserved], fun queued => by simp only [queued]⟩

/-! ### The outcomes of ACQUIRE that pass its checks -/

section
variable {s : State} {p : Port} {key : Word} {mode : Byte} {lease wait : Half} {m : Mode} {pl : Place}

/-- An ACQUIRE stands on a record of its key (R8). -/
theorem State.acquirePlace_key (place : s.acquirePlace p key = .ok pl) : pl.record.key = key := by
  obtain ⟨-, -, stands, -⟩ := State.acquirePlace_eq_ok_iff_found.mp place
  rcases stands with ⟨look, -⟩ | ⟨-, fresh, -⟩
  · exact State.lookRecord_key look
  · rw [fresh]; rfl

variable (params : acquireParams (s.settings p) key mode lease wait = .ok m)
  (place : s.acquirePlace p key = .ok pl)
include params place

theorem acquireBody_of_admissible (noWaiters : pl.record.waiters = [])
    (admissible : s.admissible pl.record m = true) :
    acquireBody p key mode lease wait s = s.grantAtOnce p pl m lease := by
  simp [acquireBody, params, place, noWaiters, admissible]

theorem acquireBody_of_inadmissible (blocked : ¬(pl.record.waiters = [] ∧ s.admissible pl.record m = true)) :
    acquireBody p key mode lease wait s =
      if wait = 0#16 then s.refuseUnqueued pl m else s.enqueue p pl m lease wait := by
  have test : ¬(pl.record.waiters.isEmpty && s.admissible pl.record m) = true := by
    simpa [List.isEmpty_iff] using blocked
  simp only [acquireBody, params, place, if_neg test]

end

/-- Settles O12: the row is its body, a holding added to the record and its start report. -/
theorem acquireGrantedAtOnce : Obligations.AcquireGrantedAtOnce := by
  unfold Obligations.AcquireGrantedAtOnce
  intro s p tag key mode lease wait m pl c deadline taken attached params place noWaiters admissible
  have named := State.acquirePlace_key place
  have gate := ((s.admissible_iff pl.record m).mp admissible).2.1
  let s' : State := { s with served := p }
  let u := s'.addHolding pl.index pl.record p m lease pl.slot
  have row : exec c s = .next ((u.reportStart pl.record.key m).placeReply p tag c .ok
      (.grant s.tok.G deadline pl.slot)) := by
    rw [exec_acquire, State.runCommand_attached taken attached,
      acquireBody_of_admissible (s := s') params place noWaiters admissible]
    rfl
  refine ⟨_, row, ?frame, ?drawn, ?records, ?slots, ?ports, ?chans⟩
  case frame => exact (s'.addHolding_frame _ _ _ _ _ _).trans (State.reportStart_frame _ _ _)
  case drawn =>
    exact s'.tokenDrawn_drawToken.of_same (State.reportStart_tok _ _ _) (State.reportStart_faultSweep _ _ _)
      (State.reportStart_store _ _ _)
  case records =>
    intro j
    rw [State.reportStart_record, State.addHolding_record]
    rfl
  case slots =>
    intro q k
    rw [State.reportStart_slot, State.addHolding_slot, named]
    rfl
  case ports =>
    intro q
    rw [State.reportStart_port, State.addHolding_port]
    rfl
  case chans =>
    rw [named] at gate ⊢
    exact State.reportStart_chan_of_admissible (s := s) gate (s'.addHolding_chan _ _ _ _ _ _)
      (s'.addHolding_boundChannel _ _ _ _ _ _ _)

/-- Settles O13: the refusal of an ACQUIRE with a wait of 0, by whether tokens alone block it. -/
theorem acquireNotQueued : Obligations.AcquireNotQueued := by
  unfold Obligations.AcquireNotQueued
  intro s p tag key mode lease m pl c taken attached params place blocked tokensAlone
  have named := State.acquirePlace_key place
  let s' : State := { s with served := p }
  have body : acquireBody p key mode lease 0#16 s' = s'.refuseUnqueued pl m :=
    acquireBody_of_inadmissible (s := s') params place blocked
  have test : (pl.record.waiters.isEmpty && pl.record.compatible m && s'.gateOpen pl.record.key m) = true ↔
      tokensAlone := by
    rw [named]
    simp only [Bool.and_eq_true, List.isEmpty_iff, and_assoc]
    rfl
  refine ⟨fun other => ?_, fun alone => ?_⟩
  · refine exec_of_answer (exec_acquire p key mode lease 0#16 s) taken attached ?_
    rw [body, State.refuseUnqueued, if_neg (mt test.mp other)]
    rfl
  · show exec (.acquire p key mode lease 0#16) s = _
    rw [exec_acquire, State.runCommand_attached taken attached, body, State.refuseUnqueued,
      if_pos (test.mpr alone), State.noteDemand_eq]
    rfl

/-- Settles O14: the entry of an ACQUIRE that waits, by whether only the gate or tokens block it. -/
theorem acquireQueued : Obligations.AcquireQueued := by
  unfold Obligations.AcquireQueued
  intro s p tag key mode lease wait m pl c deadline taken attached waits params place blocked queued
  have named := State.acquirePlace_key place
  let s' : State := { s with served := p }
  have body : acquireBody p key mode lease wait s' = s'.enqueue p pl m lease wait := by
    rw [acquireBody_of_inadmissible (s := s') params place blocked, if_neg waits]
  have test : (pl.record.waiters.isEmpty && pl.record.compatible m) = true ↔
      pl.record.waiters = [] ∧ pl.record.compatible m = true := by
    simp only [Bool.and_eq_true, List.isEmpty_iff]
  refine ⟨fun behind => ?_, fun first => ?_⟩
  · show exec (.acquire p key mode lease wait) s = _
    rw [exec_acquire, State.runCommand_attached taken attached, body, State.enqueue]
    simp only [if_neg (mt test.mp behind), named]
    rfl
  · show exec (.acquire p key mode lease wait) s = _
    rw [exec_acquire, State.runCommand_attached taken attached, body, State.enqueue]
    simp only [if_pos (test.mpr first), named, State.noteDemand_eq]
    rfl

end Sys2Proof.Machine
end

section
/-! Device resets, BOOT and the supply (R154, R160, R179 to R190): what the start of a reset leaves, what the
entry into BOOT selects, and each row of Chapter 10 by these two. -/

namespace Sys2Proof.Machine

/-! ### Rows that read as corrupt -/

/-- The bytes taken for a corrupt row read as corrupt (R59, R160, logs 8 and 9). -/
theorem ProgRow.readsCorrupt_corruptRow (r : ProgRow) (n : Nat) : r.readsCorrupt (r.corruptRow n) = true := by
  have zero : r.readsCorrupt (Vector.replicate 32 0#8) = true := by
    rcases r with side | side | side <;> cases side <;> decide +kernel
  unfold ProgRow.corruptRow
  split
  · assumption
  · exact zero

/-- A torn row is what R160 says of the phase it was stopped in. -/
theorem ProgRow.rowTorn_tornRow (req : RowRequest) (phase : Phase) (content : Row) (n : Nat) :
    RowTorn req phase content (req.row.tornRow phase content n) := by
  cases phase with
  | erase =>
    unfold RowTorn ProgRow.tornRow
    dsimp only
    cases Config.eraseTear n with
    | oldContent => exact Or.inl rfl
    | blank => exact Or.inr (Or.inl rfl)
    | corrupt => exact Or.inr (Or.inr (req.row.readsCorrupt_corruptRow n))
  | write =>
    unfold RowTorn ProgRow.tornRow
    dsimp only
    split
    · exact Or.inl rfl
    · exact Or.inr (req.row.readsCorrupt_corruptRow n)
  | verify => rfl

theorem ProgRow.index_injective : Function.Injective ProgRow.index := by
  rintro (x | x | x) (y | y | y) <;> cases x <;> cases y <;> decide

@[simp] theorem Store.row_setRow (st : Store) (r q : ProgRow) (v : Row) :
    (st.setRow r v).row q = if q = r then v else st.row q := by
  split
  · subst_vars; exact st.row_setRow_self _ v
  · rename_i ne
    have index : r.index.val ≠ q.index.val := fun e => ne (ProgRow.index_injective (Fin.ext e)).symm
    simp [Store.row, Store.setRow, index]

@[simp] theorem Store.setRow_engine (st : Store) (r : ProgRow) (v : Row) :
    (st.setRow r v).engine = st.engine := rfl
@[simp] theorem Store.setRow_advanceInput (st : Store) (r : ProgRow) (v : Row) :
    (st.setRow r v).advanceInput = st.advanceInput := rfl
@[simp] theorem Store.setRow_commitInput (st : Store) (r : ProgRow) (v : Row) :
    (st.setRow r v).commitInput = st.commitInput := rfl

theorem Store.setRow_rows_of_ne (st : Store) (r : ProgRow) (v : Row) (k : Fin 7) (ne : r.index ≠ k) :
    (st.setRow r v).rows[k] = st.rows[k] := by
  have index : r.index.val ≠ k.val := fun e => ne (Fin.ext e)
  simp [Store.setRow, index]

/-! ### The start of a reset -/

/-- The store once the engine has stopped: idle, its inputs empty, the row in progress torn (R160). -/
theorem State.stopEngine_eq (s : State) : ∃ store free, s.stopEngine = { s with store := store, free := free } ∧
    store.engine = .idle ∧ store.advanceInput = none ∧ store.commitInput = none ∧
    (s.store.engine = .idle → store.rows = s.store.rows) ∧
    ∀ req attempt phase, s.store.engine = .busy req attempt phase →
      ∃ v, RowTorn req phase (s.store.row req.row) v ∧ store.rows = (s.store.setRow req.row v).rows := by
  unfold State.stopEngine State.drawFree
  cases engine : s.store.engine with
  | idle =>
    exact ⟨_, s.free, rfl, rfl, rfl, rfl, fun _ => rfl, fun req attempt phase busy => nomatch busy⟩
  | busy req attempt phase =>
    refine ⟨_, _, rfl, rfl, rfl, rfl, (fun idle => nomatch idle), fun req' attempt' phase' busy => ?_⟩
    cases busy
    exact ⟨_, ProgRow.rowTorn_tornRow req phase (s.store.row req.row) s.free, rfl⟩

/-- What the volatile state is after its discard, apart from the state the store and the supply have. -/
theorem State.beginReset_cleared (s : State) (cause : ResetCause) : ResetCleared s (s.beginReset cause) := by
  obtain ⟨store, free, stopped, engine, advance, commit, kept, torn⟩ := s.stopEngine_eq
  have store_eq : (s.beginReset cause).store = store := by
    show s.stopEngine.store = store
    rw [stopped]
  have same : ∀ {α : Type} (f : State → α), (∀ st n, f { s with store := st, free := n } = f s) →
      f s.stopEngine = f s := fun f h => by rw [stopped]; exact h store free
  constructor
  case device => rfl
  case hold => rfl
  case now => rfl
  case table => intro i; simp [State.record, State.beginReset, State.discardVolatile]
  case slots => intro p k; simp [State.slot, State.beginReset, State.discardVolatile]
  case served => rfl
  case sessionCounter => rfl
  case sweeps => exact ⟨rfl, rfl⟩
  case ports =>
    intro p
    have pins : (s.beginReset cause).port p = PortUnit.clear (s.stopEngine.port p) := by
      simp [State.port, State.beginReset, State.discardVolatile]
    rw [pins, same (fun u => u.port p) fun _ _ => rfl]
    rfl
  case linesLow => intro ch; simp [State.chan, State.beginReset, State.discardVolatile, GateChannel.lineHigh]
  case engine => rw [store_eq]; exact ⟨engine, advance, commit⟩
  case staging => exact ⟨rfl, rfl, rfl⟩
  case rows =>
    intro k other
    rw [store_eq]
    cases run : s.store.engine with
    | idle => rw [kept run]
    | busy req attempt phase =>
      obtain ⟨v, -, rows⟩ := torn req attempt phase run
      rw [rows]
      exact Store.setRow_rows_of_ne _ _ _ _ (other req attempt phase run)
  case torn =>
    intro req attempt phase run
    obtain ⟨v, tear, rows⟩ := torn req attempt phase run
    have row : store.row req.row = (s.store.setRow req.row v).row req.row := by
      rw [Store.row, Store.row, rows]
    rw [store_eq, row, Store.row_setRow_self]
    exact tear
  case kept =>
    exact ⟨same State.ginhPin fun _ _ => rfl, same State.rstLow fun _ _ => rfl, same State.pending fun _ _ => rfl⟩

/-- The fields of the store, the supply and the pins that a start of a reset is read by. -/
theorem State.beginReset_eq (s : State) (cause : ResetCause) : ∃ store free,
    s.beginReset cause = { State.discardVolatile { s with store := store, free := free } with
      device := .inReset, supply := { s.supply with cause := s.recordedCause cause } } ∧
    s.stopEngine = { s with store := store, free := free } := by
  obtain ⟨store, free, stopped, -⟩ := s.stopEngine_eq
  exact ⟨store, free, by rw [State.beginReset, stopped]; rfl, stopped⟩

@[simp] theorem State.beginReset_supply (s : State) (cause : ResetCause) :
    (s.beginReset cause).supply = { s.supply with cause := s.recordedCause cause } := by
  obtain ⟨store, free, begun, -⟩ := s.beginReset_eq cause
  rw [begun]

@[simp] theorem State.beginReset_restartTick (s : State) (cause : ResetCause) :
    (s.beginReset cause).restartTick = s.restartTick := by
  obtain ⟨store, free, begun, -⟩ := s.beginReset_eq cause
  rw [begun]; rfl

@[simp] theorem State.beginReset_rstLow (s : State) (cause : ResetCause) :
    (s.beginReset cause).rstLow = s.rstLow := (s.beginReset_cleared cause).kept.2.1

@[simp] theorem State.beginReset_device (s : State) (cause : ResetCause) :
    (s.beginReset cause).device = .inReset := rfl

/-- The reset's account does not depend on the supply, the RST pin or the record of a RESTART's tick. -/
theorem ResetCleared.of_same {s s' t : State} (cleared : ResetCleared s t) (store : s'.store = s.store)
    (ports : s'.ports = s.ports) (ginhPin : s'.ginhPin = s.ginhPin) (rstLow : s'.rstLow = s.rstLow)
    (pending : s'.pending = s.pending) : ResetCleared s' t where
  device := cleared.device
  hold := cleared.hold
  now := cleared.now
  table := cleared.table
  slots := cleared.slots
  served := cleared.served
  sessionCounter := cleared.sessionCounter
  sweeps := cleared.sweeps
  ports p := by
    have port : s'.port p = s.port p := by rw [State.port, State.port, ports]
    rw [port]; exact cleared.ports p
  linesLow := cleared.linesLow
  engine := cleared.engine
  staging := cleared.staging
  rows k := by rw [store]; exact cleared.rows k
  torn req := by rw [store]; exact cleared.torn req
  kept := by rw [ginhPin, rstLow, pending]; exact cleared.kept

/-- A change of the supply, or of the record of a RESTART's tick, behind the start of a reset. -/
theorem ResetCleared.setSupply {s t : State} (cleared : ResetCleared s t) (supply : SupplyMonitor)
    (tick : Bool) : ResetCleared s { t with supply := supply, restartTick := tick } := by
  constructor <;> first
    | exact cleared.device | exact cleared.hold | exact cleared.now | exact cleared.table | exact cleared.slots
    | exact cleared.served | exact cleared.sessionCounter | exact cleared.sweeps | exact cleared.ports
    | exact cleared.linesLow | exact cleared.engine | exact cleared.staging | exact cleared.rows
    | exact cleared.torn | exact cleared.kept

/-- Settles O48: each cause by the start of a reset, the cause it records and the supply it leaves. -/
theorem resetCauses : Obligations.ResetCauses := by
  unfold Obligations.ResetCauses
  intro s recorded
  refine ⟨fun running => ?brownout, fun running => ?pin, fun inReset => ?low, fun inReset => ?again,
    fun supplied => ?rising, fun off => ?powerOn, ?powerOff⟩
  case brownout =>
    have row : exec .brownout s = .next ({ s with supply := s.supply.hold }.beginReset .brownout) := by
      show execBrownout s = _
      unfold execBrownout
      split
      · rename_i inReset; exact absurd inReset running
      all_goals rfl
    refine ⟨_, row, (State.beginReset_cleared _ _).of_same rfl rfl rfl rfl rfl, ?_,
      State.beginReset_restartTick _ _⟩
    rw [State.beginReset_supply]
    rfl
  case pin =>
    have row : exec .rstTakenLow s = .next ({ s with rstLow := true }.beginReset .pin) := by
      show execRstTakenLow s = _
      unfold execRstTakenLow
      split
      · rename_i inReset; exact absurd inReset running
      all_goals rfl
    exact ⟨_, row, State.beginReset_cleared _ _, State.beginReset_supply _ _, State.beginReset_restartTick _ _⟩
  case low =>
    show execRstTakenLow s = _
    simp only [execRstTakenLow, inReset]
  case again =>
    show execBrownout s = _
    simp only [execBrownout, inReset]
  case rising =>
    show execPowerOn s = _
    unfold execPowerOn
    split
    · rename_i off; exact absurd off supplied
    all_goals rfl
  case powerOn =>
    have row : exec .powerOn s =
        .next ({ s with supply := s.supply.hold, restartTick := false }.beginReset .powerOn) := by
      show execPowerOn s = _
      simp only [execPowerOn, off]
    refine ⟨_, row, (State.beginReset_cleared _ _).of_same rfl rfl rfl rfl rfl, ?_,
      State.beginReset_restartTick _ _⟩
    rw [State.beginReset_supply]
    rfl
  case powerOff =>
    by_cases inReset : s.device = .inReset
    · refine ⟨{ s with supply := ⟨.off, false, none⟩, restartTick := false }, ?_, rfl, rfl,
        fun running => absurd inReset running, fun _ => rfl⟩
      show execSupplyBelowPowerOnLevel s = _
      simp only [execSupplyBelowPowerOnLevel, inReset]
    · refine ⟨{ s.beginReset .brownout with supply := ⟨.off, false, none⟩, restartTick := false }, ?_, rfl, rfl,
        fun _ => (s.beginReset_cleared .brownout).setSupply _ _, fun h => absurd h inReset⟩
      show execSupplyBelowPowerOnLevel s = _
      unfold execSupplyBelowPowerOnLevel
      split
      · rename_i h; exact absurd h inReset
      all_goals rfl

/-! ### The entry into BOOT -/

theorem State.resetCondition_eq_false_iff (s : State) :
    s.resetCondition = false ↔ s.supply.region = .released ∧ s.rstLow = false := by
  simp [State.resetCondition]

/-- SDO as a port leaves reset (R136, log 30). -/
theorem PortUnit.leaveReset_eq (u : PortUnit) (n : Nat) : u.leaveReset n = { u with sdo := (u.leaveReset n).sdo } ∧
    (u.pins.csn = true → (u.leaveReset n).sdo = u.sdo) ∧
    (u.pins.csn = false → (u.leaveReset n).sdo.isSome = true) := by
  unfold PortUnit.leaveReset
  cases csn : u.pins.csn <;> simp

/-- What steps 1 to 4 of BOOT select, as BootSelected states it (R183 to R185). -/
theorem State.enterBoot_selected (s : State) : BootSelected s s.enterBoot := by
  have port : ∀ p, s.enterBoot.port p = (s.port p).leaveReset (s.free + p.val) := by
    intro p
    simp [State.enterBoot, State.bootFactory, State.bootTokens, State.bootConfig, State.bootChannels, State.port,
      State.portsLeaveReset]
  constructor
  case chans =>
    intro ch
    simp [State.chan, State.enterBoot, State.bootChannels, Image.chan, State.bootFactory, State.bootTokens,
      State.bootConfig, State.portsLeaveReset]
  case ports =>
    intro p
    rw [port]
    exact (s.port p).leaveReset_eq _
  all_goals rfl

@[simp] theorem State.enterBoot_supply (s : State) : s.enterBoot.supply = s.supply := rfl

/-- Settles O49: each way out of IN_RESET by its condition; the end of the RESTART hold is a reset and the
entry into BOOT in one event. -/
theorem leavingReset : Obligations.LeavingReset := by
  unfold Obligations.LeavingReset
  intro s
  have release : s.supply.region = .held → exec .supplyRelease s =
      .next { s with supply := { s.supply with region := .released } }.leaveReset := by
    intro held
    show execSupplyRelease s = _
    simp only [execSupplyRelease, held]
  have holdEnd : s.hold ≠ .none → exec .restartHoldEnd s = .next s.endHold := by
    intro running
    show execRestartHoldEnd s = _
    unfold execRestartHoldEnd
    split
    · rename_i none; exact absurd none running
    all_goals rfl
  let begun : State := { State.beginReset { s with restartTick := false } .restart with restartTick := true }
  have cleared : ResetCleared s begun :=
    (ResetCleared.setSupply (State.beginReset_cleared _ .restart) begun.supply true).of_same rfl rfl rfl rfl rfl
  have supply : begun.supply = { s.supply with cause := some .restart } := State.beginReset_supply _ .restart
  have rstLow : begun.rstLow = s.rstLow := State.beginReset_rstLow _ .restart
  refine ⟨fun held inReset high => ?_, fun held stays => ?_, fun other => ?_, fun inReset released => ?_,
    fun stays => ?_, fun none => ?_, fun running released high => ?_, fun running stays => ?_⟩
  · refine ⟨State.enterBoot { s with supply := { s.supply with region := .released } }, ?_, ?_, rfl⟩
    · rw [release held, State.leaveReset, if_pos]
      exact ⟨inReset, by simp [State.resetCondition, high]⟩
    · obtain ⟨_, _, _, _, _, _, _, _, _, _, _, _, _, _, _, _, _, _, _, _⟩ :=
        State.enterBoot_selected { s with supply := { s.supply with region := .released } }
      constructor <;> assumption
  · rw [release held, State.leaveReset, if_neg]
    rintro ⟨inReset, condition⟩
    rcases stays with running | low
    · exact running inReset
    · simp [State.resetCondition, low] at condition
  · show execSupplyRelease s = _
    unfold execSupplyRelease
    split
    · rfl
    · rename_i held; exact absurd held other
    · rfl
  · refine ⟨State.enterBoot { s with rstLow := false }, ?_, State.enterBoot_selected _, rfl⟩
    show Host.Outcome.next (State.leaveReset { s with rstLow := false }) = _
    rw [State.leaveReset, if_pos]
    exact ⟨inReset, by simp [State.resetCondition, released]⟩
  · show Host.Outcome.next (State.leaveReset { s with rstLow := false }) = _
    rw [State.leaveReset, if_neg]
    rintro ⟨inReset, condition⟩
    rcases stays with running | low
    · exact running inReset
    · simp [State.resetCondition, low] at condition
  · show execRestartHoldEnd s = _
    simp only [execRestartHoldEnd, none]
  · have out : ¬begun.resetCondition = true := by
      rw [Bool.not_eq_true, State.resetCondition_eq_false_iff, supply, rstLow]
      exact ⟨released, high⟩
    refine ⟨begun.enterBoot, begun, ?_, cleared, State.enterBoot_selected _, supply, rfl⟩
    rw [holdEnd running]
    show Host.Outcome.next begun.leaveReset = _
    rw [State.leaveReset, if_pos ⟨rfl, by simpa using out⟩]
  · refine ⟨begun, ?_, cleared, supply, rfl⟩
    rw [holdEnd running]
    show Host.Outcome.next begun.leaveReset = _
    rw [State.leaveReset, if_neg]
    rintro ⟨-, condition⟩
    have out := (State.resetCondition_eq_false_iff begun).mp (by simpa using condition)
    rw [supply, rstLow] at out
    rcases stays with low | low
    · exact low out.1
    · rw [low] at out; cases out.2

end Sys2Proof.Machine
end

section
/-! The programming engine and the ends of rows (R157 to R159, R171 to R175), the supply-low flag (R187), and the
rows that request a first advance (R185, R189). -/

namespace Sys2Proof.Machine

/-! ### What an idle engine starts -/

theorem ConfigUnit.sequenceSpent_iff (c : ConfigUnit) :
    c.sequenceSpent = true ↔ ∃ target, c.target = some target ∧ 65535 < target.seq := by
  simp [ConfigUnit.sequenceSpent, Option.any_eq_true]

theorem State.kickEngine_of_busy {s : State} (busy : s.store.engine ≠ .idle) : s.kickEngine = s := by
  unfold State.kickEngine
  cases engine : s.store.engine with
  | idle => exact absurd engine busy
  | busy req attempt phase => rfl

section
variable {s : State} (idle : s.store.engine = .idle)
include idle

theorem State.kickEngine_of_low (low : s.supply.low = true) : s.kickEngine = s := by
  simp [State.kickEngine, idle, low]

variable (clear : s.supply.low = false)
include clear

theorem State.kickEngine_of_advance {req : RowRequest} (waits : s.store.advanceInput = some req) :
    s.kickEngine =
      { s with store := { s.store with advanceInput := none, engine := .busy req .first .erase } } := by
  simp [State.kickEngine, idle, clear, waits, Store.start]

variable (noAdvance : s.store.advanceInput = none)
include noAdvance

theorem State.kickEngine_of_commit {req : RowRequest} (waits : s.store.commitInput = some req) :
    s.kickEngine = s.startCommitRow req := by
  simp [State.kickEngine, idle, clear, noAdvance, waits]

theorem State.kickEngine_of_noRequest (noCommit : s.store.commitInput = none) : s.kickEngine = s := by
  simp [State.kickEngine, idle, clear, noAdvance, noCommit]

end

/-- What an idle engine does with the requests at its inputs, as InputsServed states it. -/
theorem State.kickEngine_served {s : State} (idle : s.store.engine = .idle) : InputsServed s s.kickEngine := by
  unfold InputsServed
  cases low : s.supply.low with
  | true => rw [if_pos rfl]; exact State.kickEngine_of_low idle low
  | false =>
    rw [if_neg Bool.false_ne_true]
    cases advance : s.store.advanceInput with
    | some req => exact State.kickEngine_of_advance idle low advance
    | none =>
      cases commit : s.store.commitInput with
      | none => exact State.kickEngine_of_noRequest idle low advance commit
      | some req =>
        rw [State.kickEngine_of_commit idle low advance commit, State.startCommitRow]
        cases row : req.row with
        | copyOne side =>
          simp only [row, ProgRow.isFirstOfCommit, if_true, s.cfg.sequenceSpent_iff]
          split <;> rfl
        | copyTwo side => simp only [row, ProgRow.isFirstOfCommit, Bool.false_eq_true, if_false]; rfl
        | reserve side => simp only [row, ProgRow.isFirstOfCommit, Bool.false_eq_true, if_false]; rfl

/-- An engine that has served its inputs has no more to start. -/
theorem State.kickEngine_kickEngine (s : State) : s.kickEngine.kickEngine = s.kickEngine := by
  by_cases idle : s.store.engine = .idle
  · cases low : s.supply.low with
    | true => rw [State.kickEngine_of_low idle low, State.kickEngine_of_low idle low]
    | false =>
      cases advance : s.store.advanceInput with
      | some req =>
        rw [State.kickEngine_of_advance idle low advance]
        exact State.kickEngine_of_busy (by simp)
      | none =>
        cases commit : s.store.commitInput with
        | none =>
          rw [State.kickEngine_of_noRequest idle low advance commit,
            State.kickEngine_of_noRequest idle low advance commit]
        | some req =>
          rw [State.kickEngine_of_commit idle low advance commit, State.startCommitRow]
          dsimp only
          split
          · split
            · exact State.kickEngine_of_noRequest idle low advance rfl
            · exact State.kickEngine_of_busy (by simp [Store.start])
          · exact State.kickEngine_of_busy (by simp [Store.start])
  · rw [State.kickEngine_of_busy idle, State.kickEngine_of_busy idle]

/-! ### A row that failed its verification -/

/-- A row that failed reads blank or corrupt (R59, log 9). -/
theorem ProgRow.failedRow_class (r : ProgRow) (n : Nat) :
    r.failedRow n = blankRow ∨ r.readsCorrupt (r.failedRow n) = true := by
  unfold ProgRow.failedRow
  split
  · exact Or.inl rfl
  · exact Or.inr (r.readsCorrupt_corruptRow n)

theorem State.spoilRow_eq (s : State) (req : RowRequest) : ∃ rows, RowFailed req s.store.rows rows ∧
    s.spoilRow req = { s with free := s.free + 1, store := { s.store with rows := rows } } := by
  refine ⟨(s.store.setRow req.row (req.row.failedRow s.free)).rows,
    ⟨fun k ne => Store.setRow_rows_of_ne _ _ _ _ ne.symm, ?_⟩, rfl⟩
  have row : (s.store.setRow req.row (req.row.failedRow s.free)).rows[req.row.index] = req.row.failedRow s.free :=
    Store.row_setRow_self _ _ _
  rw [row]
  exact req.row.failedRow_class s.free

/-! ### ROW_VERIFY_END -/

section
variable {s : State} {req : RowRequest} {attempt : Attempt} (busy : s.store.engine = .busy req attempt .verify)
include busy

theorem exec_rowVerifyEnd_true :
    exec (.rowVerifyEnd true) s = .next (s.engineIdle.rowSucceeded req).kickEngine := by
  show execRowVerifyEnd true s = _
  simp only [execRowVerifyEnd, busy, if_true]

theorem exec_rowVerifyEnd_first (first : attempt = .first) :
    exec (.rowVerifyEnd false) s = .next ((s.spoilRow req).retryRow req) := by
  show execRowVerifyEnd false s = _
  simp only [execRowVerifyEnd, busy, first, Bool.false_eq_true, if_false]

theorem exec_rowVerifyEnd_second (second : attempt = .second) :
    exec (.rowVerifyEnd false) s = .next (((s.spoilRow req).engineIdle.rowFailed req).kickEngine) := by
  show execRowVerifyEnd false s = _
  simp only [execRowVerifyEnd, busy, second, Bool.false_eq_true, if_false]

/-- A failed attempt 1 is followed by attempt 2 on the same row (R157). -/
theorem exec_rowVerifyEnd_retries (first : attempt = .first) : ∃ rows, RowFailed req s.store.rows rows ∧
    exec (.rowVerifyEnd false) s = .next { s with
      free := s.free + 1
      store := { s.store with rows := rows, engine := .busy req .second .erase } } := by
  obtain ⟨rows, failed, spoiled⟩ := s.spoilRow_eq req
  refine ⟨rows, failed, ?_⟩
  rw [exec_rowVerifyEnd_first busy first, spoiled]
  rfl

end

theorem exec_rowVerifyEnd_of_otherPhase {s : State} (matched : Bool)
    (other : ∀ req attempt, s.store.engine ≠ .busy req attempt .verify) :
    exec (.rowVerifyEnd matched) s = .next s := by
  show execRowVerifyEnd matched s = .next s
  unfold execRowVerifyEnd
  split
  · rename_i req attempt verifying; exact absurd verifying (other req attempt)
  all_goals rfl

/-- The completion of an advance (R58), before the engine serves its inputs: the unit at its new floor, and the
next request where the low-water condition holds. -/
theorem State.completeAdvance_eq (s : State) (side : Side) (bytes : Row) :
    s.completeAdvance side bytes =
      if rowWord bytes 0 - s.tok.G ≤ 32#32 ∧ rowWord bytes 0 ≠ maxWord then
        State.requestAdvance { s with
          tok := { s.tok with F := rowWord bytes 0, active := some side, state := .normal, demand := false }
          availSweep := if s.tok.demand then some 0 else s.availSweep }
      else { s with
        tok := { s.tok with F := rowWord bytes 0, active := some side, state := .normal, demand := false }
        availSweep := if s.tok.demand then some 0 else s.availSweep } := by
  simp only [State.completeAdvance, State.lowWaterTest, TokenUnit.lowWater, Bool.and_eq_true, decide_eq_true_eq,
    bne_iff_ne, true_and]

/-- Settles O45: the completion or failure of an advance, and then what the idle engine starts. -/
theorem advanceRowEnds : Obligations.AdvanceRowEnds := by
  unfold Obligations.AdvanceRowEnds
  intro s req attempt side busy row F again floor next
  refine ⟨?matched, fun first => exec_rowVerifyEnd_retries busy first, fun second => ?failed⟩
  case matched =>
    have succeeded : s.engineIdle.rowSucceeded req = s.engineIdle.completeAdvance side req.bytes := by
      simp only [State.rowSucceeded, row]
    rw [exec_rowVerifyEnd_true busy, succeeded]
    refine ⟨_, rfl, ?_⟩
    have completed := s.engineIdle.completeAdvance_eq side req.bytes
    by_cases low : again
    · have request : State.advanceRequest { s.engineIdle with
          tok := { s.tok with F := F, active := some side, state := .normal, demand := false }
          availSweep := if s.tok.demand then some 0 else s.availSweep } = next := by
        simp only [State.advanceRequest, nextFloor_eq]
        rfl
      rw [completed.trans (if_pos low), State.requestAdvance, State.kickEngine_kickEngine]
      simp only [if_pos low, ← request]
      exact State.kickEngine_served rfl
    · rw [completed.trans (if_neg low)]
      simp only [if_neg low]
      exact State.kickEngine_served rfl
  case failed =>
    obtain ⟨rows, failed, spoiled⟩ := s.spoilRow_eq req
    refine ⟨rows, _, failed, exec_rowVerifyEnd_second busy second, ?_⟩
    have ended : (s.spoilRow req).engineIdle.rowFailed req = { s with
        free := s.free + 1
        tok := { s.tok with state := .storeFault }
        faultSweep := some 0
        store := { s.store with rows := rows, engine := .idle } } := by
      rw [spoiled]
      simp only [State.rowFailed, row]
      rfl
    rw [ended]
    exact State.kickEngine_served rfl

/-- The record of a copy, in the copy's two places. -/
theorem ConfigUnit.setRecord_eq (c : ConfigUnit) (side : Side) (q : Option Half) :
    c.setRecord side q = { c with
      recordA := if side = .a then q else c.recordA
      recordB := if side = .b then q else c.recordB } := by
  cases side <;> rfl

/-- Settles O46: the hand-over, the completion or the failure of a commit, and then what the idle engine
starts. -/
theorem commitRowEnds : Obligations.CommitRowEnds := by
  unfold Obligations.CommitRowEnds
  intro s req attempt side target img busy targeted image copy second ended
  have request : secondRowRequest target img = second := by rw [secondRowRequest, copy]
  refine ⟨request, fun one => ?handed, fun two => ?completed, fun either =>
    ⟨fun first => exec_rowVerifyEnd_retries busy first, fun last => ?failed⟩⟩
  case handed =>
    have handed : s.engineIdle.rowSucceeded req = { s with
        store := { s.store with engine := .idle, commitInput := some second } } := by
      have target' : s.engineIdle.cfg.target = some target := targeted
      have image' : s.engineIdle.cfg.image = some img := image
      simp only [State.rowSucceeded, one, State.handSecondRow, target', image', request]
      rfl
    rw [exec_rowVerifyEnd_true busy, handed]
    exact ⟨_, rfl, State.kickEngine_served rfl⟩
  case completed =>
    have done : s.engineIdle.rowSucceeded req = { s with
        store := { s.store with engine := .idle }
        cfg := ended { s.cfg with
            storedSeq := BitVec.ofNat 16 target.seq
            storeFrozen := s.cfg.storeFrozen || img.frozen }
          (some (BitVec.ofNat 16 target.seq)) .done } := by
      have cfg : s.engineIdle.cfg = s.cfg := rfl
      simp only [State.rowSucceeded, two, cfg, ConfigUnit.completeCommit, targeted, image, copy,
        ConfigUnit.setRecord_eq, Option.any_some]
      rfl
    rw [exec_rowVerifyEnd_true busy, done]
    exact ⟨_, rfl, State.kickEngine_served rfl⟩
  case failed =>
    obtain ⟨rows, failed, spoiled⟩ := s.spoilRow_eq req
    have fails : ∀ u : State, u.rowFailed req = { u with cfg := u.cfg.failCommit } := by
      intro u
      rcases either with row | row <;> simp only [State.rowFailed, row]
    have left : (s.spoilRow req).engineIdle.rowFailed req = { s with
        free := s.free + 1
        store := { s.store with rows := rows, engine := .idle }
        cfg := ended s.cfg none .failed } := by
      rw [fails, spoiled]
      have cfg : s.cfg.failCommit = ended s.cfg none .failed := by
        simp only [ConfigUnit.failCommit, targeted, copy, ConfigUnit.setRecord_eq]
        rfl
      rw [← cfg]
      rfl
    refine ⟨rows, _, failed, exec_rowVerifyEnd_second busy last, ?_⟩
    rw [left]
    exact State.kickEngine_served rfl

/-! ### The supply-low flag -/

/-- Settles O50: each event by the region of the supply it needs; the clearing serves an idle engine's
inputs. -/
theorem supplyLevels : Obligations.SupplyLevels := by
  unfold Obligations.SupplyLevels
  intro s
  refine ⟨fun off => ?_, fun other => ?_, fun other => ?_, fun supplied => ?_, fun released => ?_,
    fun inReset released => ?_⟩
  · show execSupplyLowSet s = _
    simp only [execSupplyLowSet, off]
  · show execSupplyLowClear s = _
    unfold execSupplyLowClear
    cases region : s.supply.region with
    | released => exact absurd region other
    | off => rfl
    | held => rfl
  · show execSupplyBelowBrownoutInReset s = _
    unfold execSupplyBelowBrownoutInReset
    split
    · rename_i inReset released
      rcases other with running | below
      · exact absurd inReset running
      · exact absurd released below
    · rfl
  · show execSupplyLowSet s = _
    unfold execSupplyLowSet
    cases region : s.supply.region with
    | off => exact absurd region supplied
    | held => rfl
    | released => rfl
  · intro clear
    have row : exec .supplyLowClear s = .next clear.kickEngine := by
      show execSupplyLowClear s = _
      unfold execSupplyLowClear
      split
      · rename_i off; cases released.symm.trans off
      · rename_i held; cases released.symm.trans held
      · rfl
    rw [row]
    exact ⟨fun busy => by rw [State.kickEngine_of_busy (s := clear) busy],
      fun idle => ⟨_, rfl, State.kickEngine_served (s := clear) idle⟩⟩
  · show execSupplyBelowBrownoutInReset s = _
    simp only [execSupplyBelowBrownoutInReset, inReset, released]
    rfl

/-! ### RESTART and the end of BOOT -/

theorem advanceTarget_none (a b : ReserveClass) :
    advanceTarget none a b = if a = .blank ∧ b = .corrupt then .b else .a := by
  cases a <;> cases b <;> simp [advanceTarget]

theorem exec_bootEnd_of_boot {s : State} (boot : s.device = .boot) : exec .bootEnd s = .next s.endBoot := by
  show execBootEnd s = _
  simp only [execBootEnd, boot]

/-- Settles O51: the target row of an advance, the body of RESTART, and the low-water test at the end of
BOOT, which holds with G equal to F. -/
theorem restartAndBootEnd : Obligations.RestartAndBootEnd := by
  unfold Obligations.RestartAndBootEnd
  refine ⟨fun a b => ⟨rfl, rfl, advanceTarget_none a b⟩, fun s p tag taken => ?restart, fun s => ?bootEnd⟩
  case restart =>
    have row := exec_restart p s
    refine ⟨fun detached => exec_of_detached row taken detached, fun attached right => ?_,
      fun attached right => ?_⟩
    · exact exec_of_answer row taken attached (if_neg (ne_true_of_eq_false right))
    · have body : restartBody p { s with served := p } =
          ⟨{ s with served := p, hold := .holding }, .ok, .none⟩ := if_pos right
      rw [row, State.runCommand_attached taken attached, body]
      rfl
  case bootEnd =>
    refine ⟨fun other => ?_, fun boot settled => ?_, fun boot advancing spent below idle noCommit => ?_⟩
    · show execBootEnd s = _
      unfold execBootEnd
      cases device : s.device with
      | boot => exact absurd device other
      | inReset => rfl
      | ready => rfl
    · rw [exec_bootEnd_of_boot boot, State.endBoot, State.bootLowWaterTest, if_neg]
      rintro ⟨advancing, -⟩
      exact settled advancing
    · intro floor req
      have low : State.bootLowWaterTest { s with device := .ready, restartTick := false } =
          State.requestAdvance { s with device := .ready, restartTick := false } := by
        rw [State.bootLowWaterTest, if_pos]
        exact ⟨advancing, by simp [TokenUnit.lowWater, spent, below]⟩
      have request : State.advanceRequest { s with device := .ready, restartTick := false } = req := by
        simp only [State.advanceRequest, nextFloor_eq]
        rfl
      have tok : { s.tok with state := .advancing } = s.tok := by rw [← advancing]
      rw [exec_bootEnd_of_boot boot, State.endBoot, low, State.requestAdvance_eq, request]
      simp only [tok, idle, true_and]
      cases s.supply.low <;> simp

end Sys2Proof.Machine
end

section
/-! What a grant pass keeps (R13, R14): an induction over its heads, and with it that holdings and waiters
stand, that admission grows no wider, and what the channel of the key can become. -/

namespace Sys2Proof.Machine

/-! ### Induction over a pass -/

/-- A property that the grant of an admissible head, the stop at a head that is not, and the retirement of an
empty record keep, is kept by a pass. -/
theorem State.grantPass_induction {motive : State → Prop} {i : RecIx}
    (grant : ∀ s r w rest, s.record i = some r → r.waiters = w :: rest → s.admissible r w.mode = true →
      motive s → motive (s.grantHead i r w rest))
    (stop : ∀ s r w rest, s.record i = some r → r.waiters = w :: rest → s.admissible r w.mode = false →
      motive s → motive (s.markReserved i r w rest))
    (retire : ∀ s r, s.record i = some r → r.isEmpty = true → motive s → motive (s.setRecord i none))
    {s : State} (start : motive s) : motive (s.grantPass i) := by
  cases stands : s.record i with
  | none => rwa [s.grantPass_none i stands]
  | some r =>
    induction waits : r.waiters generalizing s r with
    | nil =>
      rw [s.grantPass_noWaiters i r stands waits, s.retire_eq i stands]
      split
      · rename_i empty; exact retire s r stands empty start
      · exact start
    | cons w rest ih =>
      cases admissible : s.admissible r w.mode with
      | true =>
        rw [State.grantPass_of_admissible stands waits admissible]
        have record := s.grantHead_record i i r w rest
        rw [if_pos rfl] at record
        exact ih (grant s r w rest stands waits admissible start) _ record rfl
      | false =>
        rw [State.grantPass_of_stopped stands waits admissible]
        exact stop s r w rest stands waits admissible start

/-! ### One entry for each port -/

section
variable {r : Record} {w : Waiter} {rest : List Waiter}

theorem Record.onePerPort_cons (single : r.onePerPort) (waits : r.waiters = w :: rest) :
    (∀ v ∈ rest, v.port ≠ w.port) ∧ (rest.map fun v => v.port).Nodup ∧ r.holder w.port = none ∧
      ∀ v ∈ rest, r.holder v.port = none := by
  obtain ⟨nodup, unheld⟩ := single
  rw [waits] at nodup unheld
  rw [List.map_cons, List.nodup_cons] at nodup
  refine ⟨fun v mem same => nodup.1 ?_, nodup.2, unheld w (by simp), fun v mem => unheld v (by simp [mem])⟩
  rw [← same]
  exact List.mem_map_of_mem mem

theorem Record.granted_onePerPort (single : r.onePerPort) (waits : r.waiters = w :: rest) (token deadline : Word) :
    (r.granted w rest token deadline).onePerPort := by
  obtain ⟨others, nodup, -, unheld⟩ := Record.onePerPort_cons single waits
  refine ⟨nodup, fun v mem => ?_⟩
  rw [Record.granted, Record.holder_setHolder, if_neg (others v mem)]
  exact unheld v mem

theorem Record.setHead_onePerPort (single : r.onePerPort) (waits : r.waiters = w :: rest) {w' : Waiter}
    (port : w'.port = w.port) : Record.onePerPort { r with waiters := w' :: rest } := by
  obtain ⟨nodup, unheld⟩ := single
  rw [waits] at nodup unheld
  refine ⟨?_, fun v mem => ?_⟩
  · simpa [port] using nodup
  · rcases List.mem_cons.mp mem with rfl | mem
    · exact (congrArg r.holder port).trans (unheld w (by simp))
    · exact unheld v (by simp [mem])

theorem Record.holder_granted (token deadline : Word) (q : Port) : (r.granted w rest token deadline).holder q =
    if q = w.port then some ⟨w.mode, token, deadline, w.slot⟩ else r.holder q := by
  rw [Record.granted, Record.holder_setHolder]
  rfl

end

/-- The record at which a pass has stopped: its head RESERVED, or as it was. -/
theorem State.markReserved_record_head {s : State} {i : RecIx} {r : Record} {w : Waiter} {rest : List Waiter}
    (stands : s.record i = some r) (waits : r.waiters = w :: rest) :
    ∃ state, (s.markReserved i r w rest).record i = some { r with waiters := { w with state := state } :: rest } := by
  rw [State.markReserved_record stands waits]
  cases r.compatible w.mode with
  | false =>
    refine ⟨w.state, ?_⟩
    rw [show ({ w with state := w.state } : Waiter) = w from rfl, ← waits]
    simpa using stands
  | true => exact ⟨.reserved, by simp [Record.reservedHead]⟩

/-! ### Holdings and waiters stand -/

section
variable {s : State} {i : RecIx} {r : Record}

/-- A holding stands through a pass on its record. -/
theorem State.grantPass_holder (stands : s.record i = some r) (single : r.onePerPort) {q : Port} {h : Holding}
    (held : r.holder q = some h) : ∃ r', (s.grantPass i).record i = some r' ∧ r'.holder q = some h := by
  have kept : ∃ r', (s.grantPass i).record i = some r' ∧ r'.onePerPort ∧ r'.holder q = some h := by
    refine State.grantPass_induction (motive := fun t => ∃ r', t.record i = some r' ∧ r'.onePerPort ∧
      r'.holder q = some h) ?grant ?stop ?retire ⟨r, stands, single, held⟩
    case grant =>
      rintro s r w rest stands waits - ⟨r', stands', single, held⟩
      cases stands.symm.trans stands'
      refine ⟨_, (s.grantHead_record i i r w rest).trans (if_pos rfl), Record.granted_onePerPort single waits _ _, ?_⟩
      rw [Record.holder_granted, if_neg, held]
      rintro rfl
      rw [(Record.onePerPort_cons single waits).2.2.1] at held
      cases held
    case stop =>
      rintro s r w rest stands waits - ⟨r', stands', single, held⟩
      cases stands.symm.trans stands'
      obtain ⟨state, record⟩ := State.markReserved_record_head stands waits
      exact ⟨_, record, Record.setHead_onePerPort single waits rfl, held⟩
    case retire =>
      rintro s r stands empty ⟨r', stands', -, held⟩
      cases stands.symm.trans stands'
      rw [((Record.isEmpty_iff r).mp empty).1 q] at held
      cases held
  obtain ⟨r', stands', -, held'⟩ := kept
  exact ⟨r', stands', held'⟩

/-- A waiter waits on through a pass on its record, or is granted (R13, R14). -/
theorem State.grantPass_waiter (stands : s.record i = some r) (single : r.onePerPort) {w : Waiter}
    (waiting : w ∈ r.waiters) : WaiterStands (s.grantPass i) i w s.now := by
  have kept : (s.grantPass i).now = s.now ∧ ∃ r', (s.grantPass i).record i = some r' ∧ r'.onePerPort ∧
      ((∃ st, { w with state := st } ∈ r'.waiters) ∨
        ∃ token, r'.holder w.port = some ⟨w.mode, token, s.now + w.lease.setWidth 32, w.slot⟩) := by
    refine State.grantPass_induction (motive := fun t => t.now = s.now ∧ ∃ r', t.record i = some r' ∧
      r'.onePerPort ∧ ((∃ st, { w with state := st } ∈ r'.waiters) ∨
        ∃ token, r'.holder w.port = some ⟨w.mode, token, s.now + w.lease.setWidth 32, w.slot⟩)) ?grant ?stop ?retire
      ⟨rfl, r, stands, single, Or.inl ⟨w.state, waiting⟩⟩
    case grant =>
      rintro t r v rest stands waits - ⟨now, r', stands', single, either⟩
      cases stands.symm.trans stands'
      refine ⟨(t.grantHead_frame i r v rest).now.trans now, _, (t.grantHead_record i i r v rest).trans (if_pos rfl),
        Record.granted_onePerPort single waits _ _, ?_⟩
      obtain ⟨others, -, unheld, -⟩ := Record.onePerPort_cons single waits
      simp only [Record.holder_granted]
      rcases either with ⟨st, mem⟩ | ⟨token, held⟩
      · rw [waits] at mem
        rcases List.mem_cons.mp mem with rfl | mem
        · exact Or.inr ⟨t.tok.G, by rw [if_pos rfl, now]⟩
        · exact Or.inl ⟨st, mem⟩
      · refine Or.inr ⟨token, ?_⟩
        rw [if_neg, held]
        intro same
        rw [same, unheld] at held
        cases held
    case stop =>
      rintro t r v rest stands waits - ⟨now, r', stands', single, either⟩
      cases stands.symm.trans stands'
      obtain ⟨state, record⟩ := State.markReserved_record_head stands waits
      refine ⟨(t.markReserved_frame i r v rest).now.trans now, _, record,
        Record.setHead_onePerPort single waits rfl, either.imp_left ?_⟩
      rintro ⟨st, mem⟩
      rw [waits] at mem
      rcases List.mem_cons.mp mem with rfl | mem
      · exact ⟨state, List.mem_cons_self⟩
      · exact ⟨st, List.mem_cons_of_mem _ mem⟩
    case retire =>
      rintro t r stands empty ⟨-, r', stands', -, either⟩
      cases stands.symm.trans stands'
      obtain ⟨unheld, unwaiting⟩ := (Record.isEmpty_iff r).mp empty
      rcases either with ⟨st, mem⟩ | ⟨token, held⟩
      · rw [unwaiting] at mem; cases mem
      · rw [unheld] at held; cases held
  obtain ⟨-, r', stands', -, either⟩ := kept
  exact ⟨r', stands', either⟩

end

/-! ### Admission grows no wider -/

/-- What is admissible after was admissible before. -/
def NoWider (s t : State) : Prop := ∀ r m, t.admissible r m = true → s.admissible r m = true

theorem NoWider.refl (s : State) : NoWider s s := fun _ _ h => h

theorem NoWider.trans {s t u : State} (h : NoWider s t) (k : NoWider t u) : NoWider s u :=
  fun r m admissible => h r m (k r m admissible)

/-- A grant closes gates and spends a token that was available. -/
theorem State.grantHead_noWider {s : State} (i : RecIx) {r : Record} {w : Waiter} (rest : List Waiter)
    (admissible : s.admissible r w.mode = true) : NoWider s (s.grantHead i r w rest) := by
  intro r' m after
  obtain ⟨-, gate, available⟩ := (s.admissible_iff r w.mode).mp admissible
  obtain ⟨compatible', gate', -⟩ := (State.admissible_iff _ r' m).mp after
  refine (s.admissible_iff r' m).mpr ⟨compatible', (s.gateOpen_iff r'.key m).mpr fun exclusive ch bound => ?_,
    available⟩
  have bound' := (State.boundChannel_of_cfg (s.grantHead_frame i r w rest).cfg r'.key).trans bound
  have opened := (State.gateOpen_iff _ r'.key m).mp gate' exclusive ch bound'
  rw [s.grantHead_chan i r w rest gate] at opened
  split at opened
  · dsimp only at opened
    split at opened <;> cases opened
  · exact opened

theorem State.markReserved_noWider (s : State) (i : RecIx) (r : Record) (w : Waiter) (rest : List Waiter) :
    NoWider s (s.markReserved i r w rest) := by
  intro r' m after
  have same : (s.markReserved i r w rest).admissible r' m = s.admissible r' m := by
    have cfg := (s.markReserved_frame i r w rest).cfg
    have chans := s.markReserved_chan i r w rest
    rcases s.markReserved_tok i r w rest with tok | tok
    · exact State.admissible_congr rfl (fun _ => rfl) chans cfg (by rw [tok]) (by rw [tok]) (by rw [tok]) m
    · rw [State.noteDemand_eq] at tok
      exact State.admissible_congr rfl (fun _ => rfl) chans cfg (by rw [tok]) (by rw [tok]) (by rw [tok]) m
  rwa [same] at after

theorem State.grantPass_noWider (s : State) (i : RecIx) : NoWider s (s.grantPass i) :=
  State.grantPass_induction (motive := NoWider s)
    (fun _ _ _ rest _ _ admissible before => before.trans (State.grantHead_noWider i rest admissible))
    (fun t r w rest _ _ _ before => before.trans (t.markReserved_noWider i r w rest))
    (fun _ _ _ _ before => before) (NoWider.refl s)

theorem State.retire_noWider (s : State) (i : RecIx) : NoWider s (s.retire i) := by
  unfold State.retire
  split <;> exact NoWider.refl s

/-! ### The channel of the key -/

theorem State.boundChannel_key {s : State} {key : Word} {ch : Channel} (bound : s.boundChannel key = some ch) :
    (s.cfg.effective.chan ch).key = key := (State.boundChannel_eq_some_iff.mp bound).2.1

/-- A channel that a pass has left as it was, or that it found in IDLE and an EXCLUSIVE grant has taken. -/
def ChannelTaken (s t : State) (key : Word) (ch : Channel) : Prop :=
  t.chan ch = s.chan ch ∨ (s.chan ch).state = .idle ∧ t.heldExclusive key ∧
    t.chan ch = { s.chan ch with state := if (s.chan ch).ginh then .heldLow else .high }

theorem State.chan_ne_idle_of_taken {s t : State} {ch : Channel}
    (taken : t.chan ch = { s.chan ch with state := if (s.chan ch).ginh then .heldLow else .high }) :
    (t.chan ch).state ≠ .idle := by
  rw [taken]
  dsimp only
  split <;> simp

/-- No head stands beside an EXCLUSIVE holding: a grant never takes the place of one. -/
theorem Record.compatible_of_exclusive {r : Record} {q : Port} {h : Holding} (held : r.holder q = some h)
    (exclusive : h.mode = .exclusive) (m : Mode) : r.compatible m = false := by
  rw [Bool.eq_false_iff, Ne, Record.compatible_iff]
  rintro ⟨alone, shared⟩
  cases m with
  | exclusive => rw [alone rfl q] at held; cases held
  | shared => rw [shared rfl q h held] at exclusive; cases exclusive

theorem State.heldExclusive_grantHead {s : State} {i : RecIx} {r : Record} {w : Waiter} {rest : List Waiter}
    (stands : s.record i = some r) (admissible : s.admissible r w.mode = true) {key : Word}
    (held : s.heldExclusive key) : (s.grantHead i r w rest).heldExclusive key := by
  obtain ⟨j, r', stands', named, q, h, held', exclusive⟩ := held
  have index : j ≠ i := by
    rintro rfl
    cases stands.symm.trans stands'
    have compatible := ((s.admissible_iff r w.mode).mp admissible).1
    rw [Record.compatible_of_exclusive held' exclusive] at compatible
    cases compatible
  exact ⟨j, r', (s.grantHead_record i j r w rest).trans (by rw [if_neg index, stands']), named, q, h, held',
    exclusive⟩

theorem State.heldExclusive_markReserved {s : State} {i : RecIx} {r : Record} {w : Waiter} {rest : List Waiter}
    (stands : s.record i = some r) (waits : r.waiters = w :: rest) {key : Word} (held : s.heldExclusive key) :
    (s.markReserved i r w rest).heldExclusive key := by
  obtain ⟨j, r', stands', named, q, h, held', exclusive⟩ := held
  rw [Option.mem_def] at stands'
  by_cases index : j = i
  · subst index
    cases stands.symm.trans stands'
    obtain ⟨state, record⟩ := State.markReserved_record_head stands waits
    exact ⟨j, _, record, named, q, h, held', exclusive⟩
  · refine ⟨j, r', ?_, named, q, h, held', exclusive⟩
    rw [Option.mem_def, State.markReserved_record stands waits, if_neg (fun h => index h.1), stands']

theorem State.heldExclusive_retired {s : State} {i : RecIx} {r : Record} (stands : s.record i = some r)
    (empty : r.isEmpty = true) {key : Word} (held : s.heldExclusive key) :
    (s.setRecord i none).heldExclusive key := by
  obtain ⟨j, r', stands', named, q, h, held', exclusive⟩ := held
  rw [Option.mem_def] at stands'
  by_cases index : j = i
  · subst index
    cases stands.symm.trans stands'
    rw [((Record.isEmpty_iff r).mp empty).1 q] at held'
    cases held'
  · exact ⟨j, r', by rw [Option.mem_def, State.record_setRecord, if_neg index, stands'], named, q, h, held',
      exclusive⟩

/-- What a pass makes of the channel of a key (R74): taken at most once, by an EXCLUSIVE grant of that key. -/
theorem State.grantPass_channelTaken (s : State) (i : RecIx) {key : Word} {ch : Channel}
    (bound : s.boundChannel key = some ch) : ChannelTaken s (s.grantPass i) key ch := by
  have kept : (s.grantPass i).cfg = s.cfg ∧ ChannelTaken s (s.grantPass i) key ch := by
    refine State.grantPass_induction (motive := fun t => t.cfg = s.cfg ∧ ChannelTaken s t key ch) ?grant ?stop
      ?retire ⟨rfl, Or.inl rfl⟩
    case grant =>
      rintro t r w rest stands waits admissible ⟨cfg, before⟩
      obtain ⟨-, gate, -⟩ := (t.admissible_iff r w.mode).mp admissible
      refine ⟨(t.grantHead_frame i r w rest).cfg.trans cfg, ?_⟩
      have after := t.grantHead_chan i r w rest gate ch
      rcases before with same | ⟨idle, held, taken⟩
      · rw [same] at after
        split at after
        · rename_i starts
          have bound' := (State.boundChannel_of_cfg cfg r.key).symm.trans starts.2
          have named : r.key = key := (State.boundChannel_key bound').symm.trans (State.boundChannel_key bound)
          have opened := (t.gateOpen_iff r.key w.mode).mp gate starts.1 ch starts.2
          refine Or.inr ⟨by rw [← same]; exact opened, ?_, after⟩
          refine ⟨i, _, (t.grantHead_record i i r w rest).trans (if_pos rfl), named, w.port,
            ⟨w.mode, t.tok.G, t.now + w.lease.setWidth 32, w.slot⟩, ?_, starts.1⟩
          rw [Option.mem_def, Record.holder_granted, if_pos rfl]
        · exact Or.inl after
      · refine Or.inr ⟨idle, State.heldExclusive_grantHead stands admissible held, ?_⟩
        rw [after, if_neg, taken]
        rintro ⟨exclusive, bound'⟩
        exact State.chan_ne_idle_of_taken taken ((t.gateOpen_iff r.key w.mode).mp gate exclusive ch bound')
    case stop =>
      rintro t r w rest stands waits - ⟨cfg, before⟩
      refine ⟨(t.markReserved_frame i r w rest).cfg.trans cfg, ?_⟩
      have after := t.markReserved_chan i r w rest ch
      rcases before with same | ⟨idle, held, taken⟩
      · exact Or.inl (after.trans same)
      · exact Or.inr ⟨idle, State.heldExclusive_markReserved stands waits held, after.trans taken⟩
    case retire =>
      rintro t r stands empty ⟨cfg, before⟩
      refine ⟨cfg, before.imp_right fun ⟨idle, held, taken⟩ =>
        ⟨idle, State.heldExclusive_retired stands empty held, taken⟩⟩
  exact kept.2

theorem State.heldExclusive_grantPass {s : State} (i : RecIx) {key : Word} (held : s.heldExclusive key) :
    (s.grantPass i).heldExclusive key :=
  State.grantPass_induction (motive := fun t => t.heldExclusive key)
    (fun _ _ _ _ stands _ admissible before => State.heldExclusive_grantHead stands admissible before)
    (fun _ _ _ _ stands waits _ before => State.heldExclusive_markReserved stands waits before)
    (fun _ _ stands empty before => State.heldExclusive_retired stands empty before) held

/-- The end report of an EXCLUSIVE holding, and then passes, are what R75 says of the channel. -/
theorem endReported_of_taken {s t u : State} {key : Word} {ch : Channel}
    (ended : u.chan ch = (s.chan ch).ended s.now) (taken : ChannelTaken u t key ch) : EndReported s t key ch := by
  intro high
  rw [GateChannel.ended, if_pos high] at ended
  unfold ChannelTaken at taken
  rw [ended] at taken
  refine ⟨fun guarded => ?_, fun opened => ?_⟩
  · simp only [if_neg guarded, reduceCtorEq, false_and, or_false] at taken
    rw [taken]
  · simp only [if_pos opened, true_and] at taken
    rcases taken with same | ⟨held, same⟩
    · exact Or.inl (by rw [same])
    · exact Or.inr ⟨held, by rw [same]⟩

end Sys2Proof.Machine
end

section
/-! The end of a holding and the departure of a waiter, each with the pass that follows it (R24 to R27, R39, R43):
RELEASE, CANCEL, LEASE_EXPIRY, WAIT_EXPIRY, and the reports of availability and of a fault (R16, R63). -/

namespace Sys2Proof.Machine

/-! ### The end of a holding -/

section
variable (s : State) (i : RecIx) (r : Record) (p : Port) (h : Holding)

theorem State.reportEnd_eq_ended (v : State) (key : Word) (mode : Mode) :
    v.reportEnd key mode = match mode, v.boundChannel key with
      | .exclusive, some ch => v.setChan ch ((v.chan ch).ended v.now)
      | _, _ => v := by
  unfold State.reportEnd
  simp only [GateChannel.endReport_eq_ended] <;> rfl

/-- The end of a holding without a notice, as holdingGone states it (R24). -/
theorem State.endHolding_none : s.endHolding i r p h none = s.holdingGone i r p h
    (if s.noticesNaming p h.slot = 0 then .free else .pinned r.key h.token) := by
  unfold State.endHolding State.holdingGone
  dsimp only
  rw [State.reportEnd_eq_ended]
  rfl

/-- The end of a holding with its notice: the notice joins the port's queue and pins the slot (R24). -/
theorem State.endHolding_some (kind : NoticeKind) :
    s.endHolding i r p h (some kind) = State.holdingGone (s.setPort p { s.port p with
        notices := (s.port p).notices ++ [⟨(s.port p).seq, kind, r.key, h.slot, h.token, .none, s.now⟩]
        seq := (s.port p).seq + 1#8 }) i r p h (.pinned r.key h.token) := by
  have named : ((s.setRecord i (some (r.setHolder p none))).postNotice p kind r.key h.slot h.token
      .none).noticesNaming p h.slot ≠ 0 := by simp [State.noticesNaming]
  unfold State.endHolding State.holdingGone
  dsimp only
  rw [State.reportEnd_eq_ended, State.settleEnded, if_neg named]
  rfl

theorem State.endHolding_chan (cause : Option NoticeKind) (ch : Channel) :
    (s.endHolding i r p h cause).chan ch =
      if h.mode = .exclusive ∧ s.boundChannel r.key = some ch then (s.chan ch).ended s.now else s.chan ch := by
  have report : ∀ v : State, v.now = s.now → v.boundChannel r.key = s.boundChannel r.key →
      v.chan ch = s.chan ch → (v.reportEnd r.key h.mode).chan ch =
        if h.mode = .exclusive ∧ s.boundChannel r.key = some ch then (s.chan ch).ended s.now else s.chan ch := by
    intro v now bound chan
    rw [State.reportEnd_chan, bound, chan, now, GateChannel.endReport_eq_ended]
  cases cause <;> exact report _ rfl rfl rfl

/-- What the end of a holding and the pass that follows it leave of the rest of the claim state. -/
structure HoldingPassed (s t : State) (i : RecIx) (r : Record) (p : Port) (h : Holding) : Prop where
  passDone : t.passDone i
  record : ∀ r', t.record i = some r' → r'.key = r.key ∧ r'.holder p = none
  record_ne : ∀ j, j ≠ i → t.record j = s.record j
  slot_ne : ∀ k, k ≠ h.slot → t.slot p k = s.slot p k
  other : ∀ q, q ≠ p → r.waiter q = none → t.port q = s.port q ∧ ∀ k, t.slot q k = s.slot q k
  chan : ∀ ch, s.boundChannel r.key ≠ some ch → t.chan ch = s.chan ch
  ended : ∀ ch, s.boundChannel r.key = some ch → h.mode = .exclusive → EndReported s t r.key ch

/-- A holding that ends, and the pass: the port is no waiter beside its holding. -/
theorem State.endHolding_passed (unwaiting : r.waiter p = none) (cause : Option NoticeKind) :
    HoldingPassed s ((s.endHolding i r p h cause).grantPass i) i r p h := by
  have record : (s.endHolding i r p h cause).record i = some (r.setHolder p none) :=
    (s.endHolding_record i i r p h cause).trans (if_pos rfl)
  have pass := State.grantPass_local _ i _ record
  have bound : ∀ key, (s.endHolding i r p h cause).boundChannel key = s.boundChannel key :=
    State.boundChannel_of_cfg (s.endHolding_frame i r p h cause).cfg
  have slot : ∀ q k, (q ≠ p ∨ k ≠ h.slot) → (s.endHolding i r p h cause).slot q k = s.slot q k := by
    intro q k other
    rw [State.endHolding_slot, if_neg]
    rintro ⟨port, slot⟩
    exact other.elim (· port) (· slot)
  have port : ∀ q, q ≠ p → (s.endHolding i r p h cause).port q = s.port q := by
    intro q other
    rw [State.endHolding_port]
    cases cause with
    | none => rfl
    | some kind => exact if_neg other
  constructor
  case passDone => exact State.grantPass_passDone _ i
  case record =>
    intro r' after
    obtain ⟨key, others⟩ := pass.record_eq r' after
    refine ⟨key, (others p unwaiting).2.trans ?_⟩
    rw [Record.holder_setHolder, if_pos rfl]
  case record_ne =>
    intro j ne
    rw [pass.record_ne j ne, State.endHolding_record, if_neg ne]
  case slot_ne => exact fun k ne => (pass.slot p unwaiting k).trans (slot p k (Or.inr ne))
  case other =>
    exact fun q ne idle => ⟨(pass.port q idle).trans (port q ne),
      fun k => (pass.slot q idle k).trans (slot q k (Or.inl ne))⟩
  case chan =>
    intro ch unbound
    rw [pass.chan ch (by rw [bound]; exact unbound), State.endHolding_chan, if_neg (fun hc => unbound hc.2)]
  case ended =>
    intro ch isBound exclusive
    refine endReported_of_taken (u := s.endHolding i r p h cause) ?_
      (State.grantPass_channelTaken _ i ((bound _).trans isBound))
    rw [State.endHolding_chan, if_pos ⟨exclusive, isBound⟩]

/-- The slot and the port of the holding that ended: the pass leaves them. -/
theorem State.endHolding_passed_port (unwaiting : r.waiter p = none) (cause : Option NoticeKind) :
    ((s.endHolding i r p h cause).grantPass i).port p = (s.endHolding i r p h cause).port p ∧
    ((s.endHolding i r p h cause).grantPass i).slot p h.slot = (s.endHolding i r p h cause).slot p h.slot := by
  have record : (s.endHolding i r p h cause).record i = some (r.setHolder p none) :=
    (s.endHolding_record i i r p h cause).trans (if_pos rfl)
  have pass := State.grantPass_local _ i _ record
  exact ⟨pass.port p unwaiting, pass.slot p unwaiting h.slot⟩

end

/-! ### RELEASE -/

section
variable {s : State} {p : Port} {key token : Word} {i : RecIx} {r : Record} {h : Holding}

theorem releaseBody_of_noHolding (unheld : s.holdingOf p key = none) :
    releaseBody p key token s = s.answer .notHeld := by
  simp only [releaseBody, unheld]

theorem releaseBody_of_wrongToken (held : s.holdingOf p key = some (i, r, h))
    (wrong : token = 0#32 ∨ token ≠ h.token) : releaseBody p key token s = s.answer .badToken := by
  simp only [releaseBody, held, if_pos wrong]

theorem releaseBody_of_token (held : s.holdingOf p key = some (i, r, h)) (nonzero : token ≠ 0#32)
    (own : token = h.token) :
    releaseBody p key token s = ⟨(s.endHolding i r p h none).grantPass i, .ok, .none⟩ := by
  simp only [releaseBody, held]
  exact if_neg (not_or.mpr ⟨nonzero, fun h => h own⟩)

end

/-- Settles O15: the refusals of the body, and then `State.endHolding_passed`. -/
theorem releaseOutcome : Obligations.ReleaseOutcome := by
  unfold Obligations.ReleaseOutcome
  intro s p tag key token c refused taken attached
  refine ⟨fun unheld => ?_, fun i r h held => ⟨fun wrong => ?_, fun nonzero own unwaiting => ?_⟩⟩
  · exact exec_of_answer (exec_release p key token s) taken attached
      (releaseBody_of_noHolding (s := { s with served := p }) unheld)
  · exact exec_of_answer (exec_release p key token s) taken attached
      (releaseBody_of_wrongToken (s := { s with served := p }) held wrong)
  · intro sl t
    let s' : State := { s with served := p }
    have named : r.key = key := State.lookRecord_key (State.holdingOf_eq_some_iff.mp held).1
    have ended : t = (s'.endHolding i r p h none).grantPass i := by
      rw [State.endHolding_none, named]
      rfl
    have row : exec c s = .next (t.placeReply p tag c .ok .none) := by
      rw [ended, exec_release, State.runCommand_attached taken attached,
        releaseBody_of_token (s := s') held nonzero own]
    obtain ⟨passDone, record, record_ne, slot_ne, other, chan, reported⟩ :=
      s'.endHolding_passed i r p h unwaiting none
    obtain ⟨port, slot⟩ := s'.endHolding_passed_port i r p h unwaiting none
    rw [named] at record chan reported
    rw [ended] at row ⊢
    refine ⟨row, (s'.endHolding_frame i r p h none).trans (State.grantPass_frame _ i), passDone, record, record_ne,
      ?_, slot_ne, ?_, other, reported, chan⟩
    · rw [slot, State.endHolding_slot, if_pos ⟨rfl, rfl⟩, named]
      simp only [true_and]
      rfl
    · rw [port, State.endHolding_port]
      rfl

/-! ### LEASE_EXPIRY -/

theorem exec_leaseExpiry_of_ready {s : State} {p : Port} {key : Word} (ready : s.device = .ready) :
    exec (.leaseExpiry p key) s = .next (s.expireLease p key) := by
  show execLeaseExpiry p key s = _
  rw [execLeaseExpiry, if_pos ready]

theorem State.expireLease_of_due {s : State} {p : Port} {key : Word} {i : RecIx} {r : Record} {h : Holding}
    (held : s.holdingOf p key = some (i, r, h)) (due : h.deadline = s.now) :
    s.expireLease p key = (s.endHolding i r p h (some .lapsed)).grantPass i := by
  simp only [State.expireLease, held, (s.reached_iff h.deadline).mpr due, if_true, State.lapse]

theorem State.expireLease_of_notDue {s : State} {p : Port} {key : Word}
    (notDue : ∀ i r h, s.holdingOf p key = some (i, r, h) → h.deadline ≠ s.now) : s.expireLease p key = s := by
  unfold State.expireLease
  split
  · rename_i i r h held
    exact if_neg (mt (s.reached_iff h.deadline).mp (notDue i r h held))
  · rfl

/-- Settles O21: the expiry in and out of READY and at its deadline, and then `State.endHolding_passed`. -/
theorem leaseExpiryLapses : Obligations.LeaseExpiryLapses := by
  unfold Obligations.LeaseExpiryLapses
  intro s p key
  refine ⟨fun nothing => ?_, fun i r h ready held => ⟨fun notDue => ?_, fun due unwaiting => ?_⟩⟩
  · by_cases ready : s.device = .ready
    · rw [exec_leaseExpiry_of_ready ready, State.expireLease_of_notDue]
      intro i r h held
      rw [nothing.resolve_left (fun hd => hd ready)] at held
      cases held
    · exact congrArg Host.Outcome.next (if_neg ready)
  · rw [exec_leaseExpiry_of_ready ready, State.expireLease_of_notDue]
    intro i' r' h' held'
    cases held.symm.trans held'
    exact notDue
  · intro u t
    have named : r.key = key := State.lookRecord_key (State.holdingOf_eq_some_iff.mp held).1
    have ended : t = (s.endHolding i r p h (some .lapsed)).grantPass i := by
      rw [State.endHolding_some, named]
    obtain ⟨passDone, record, record_ne, slot_ne, other, chan, reported⟩ :=
      s.endHolding_passed i r p h unwaiting (some .lapsed)
    obtain ⟨port, slot⟩ := s.endHolding_passed_port i r p h unwaiting (some .lapsed)
    rw [named] at record chan reported
    rw [ended, exec_leaseExpiry_of_ready ready, State.expireLease_of_due held due]
    refine ⟨rfl, (s.endHolding_frame i r p h (some .lapsed)).trans (State.grantPass_frame _ i), passDone, record,
      record_ne, ?_, slot_ne, ?_, other, chan, reported⟩
    · rw [slot, State.endHolding_slot, if_pos ⟨rfl, rfl⟩, named]
      simp
    · rw [port, State.endHolding_port, named]
      exact if_pos rfl

/-! ### The departure of a waiter -/

theorem State.setRecord_setRecord (s : State) (i : RecIx) (a b : Option Record) :
    (s.setRecord i a).setRecord i b = s.setRecord i b := by
  simp only [State.setRecord, Vector.set_set]

theorem State.setSlot_setRecord (s : State) (p : Port) (k : SlotIx) (sl : Slot) (i : RecIx) (r : Option Record) :
    (s.setSlot p k sl).setRecord i r = (s.setRecord i r).setSlot p k sl := rfl

/-- A retirement before a pass makes no difference to it. -/
theorem State.grantPass_retire (s : State) (i : RecIx) : (s.retire i).grantPass i = s.grantPass i := by
  cases stands : s.record i with
  | none =>
    have same : s.retire i = s := State.retire_of_nonempty fun r h => by rw [stands] at h; cases h
    rw [same]
  | some r =>
    rw [s.retire_eq i stands]
    split
    · rename_i empty
      rw [s.grantPass_noWaiters i r stands ((Record.isEmpty_iff r).mp empty).2, s.retire_eq i stands, if_pos empty]
      exact State.grantPass_none _ i (by rw [State.record_setRecord, if_pos rfl])
    · rfl

theorem Record.headIs_iff (r : Record) (p : Port) :
    r.headIs p = true ↔ ∃ v, r.waiters.head? = some v ∧ v.port = p := by
  simp [Record.headIs, Option.any_eq_true]

section
variable (s : State) (i : RecIx) (r : Record) (p : Port) (w : Waiter) (port : w.port = p)
include port

/-- The departure of an entry without a notice, up to its pass, as entryGone states it (R25). -/
theorem State.dropWaiter_none_retire :
    (s.dropWaiter i r w none).retire i = s.entryGone i r p w.slot .free := by
  subst port
  have record : (s.dropWaiter i r w none).record i = some (r.dropWaiter w.port) :=
    (s.dropWaiter_record i i r w none).trans (if_pos rfl)
  rw [State.retire_eq _ i record]
  unfold State.entryGone State.dropWaiter Record.dropWaiter
  dsimp only
  split
  · rw [State.setSlot_setRecord, State.setRecord_setRecord]
  · rfl

/-- The departure of an entry with its notice, up to its pass (R25). -/
theorem State.dropWaiter_some_retire (reason : Reason) :
    (s.dropWaiter i r w (some reason)).retire i = State.entryGone (s.setPort p { s.port p with
        notices := (s.port p).notices ++ [⟨(s.port p).seq, .withdrawn, r.key, w.slot, 0#32, reason, s.now⟩]
        seq := (s.port p).seq + 1#8 }) i r p w.slot (.pinned r.key 0#32) := by
  subst port
  have record : (s.dropWaiter i r w (some reason)).record i = some (r.dropWaiter w.port) :=
    (s.dropWaiter_record i i r w (some reason)).trans (if_pos rfl)
  rw [State.retire_eq _ i record]
  unfold State.entryGone State.dropWaiter Record.dropWaiter
  dsimp only
  split
  · rw [State.setSlot_setRecord]
    congr 1
    exact State.setRecord_setRecord (s.setPort w.port { s.port w.port with
        notices := (s.port w.port).notices ++
          [⟨(s.port w.port).seq, .withdrawn, r.key, w.slot, 0#32, reason, s.now⟩]
        seq := (s.port w.port).seq + 1#8 }) i _ none
  · rfl

end

/-- What the departure of an entry and the pass that follows it leave of the rest of the claim state. -/
structure EntryPassed (s t : State) (i : RecIx) (r : Record) (p : Port) (w : Waiter) : Prop where
  passDone : t.passDone i
  record : ∀ r', t.record i = some r' → r'.key = r.key ∧ r'.waiter p = none ∧ r'.holder p = r.holder p
  record_ne : ∀ j, j ≠ i → t.record j = s.record j
  slot_ne : ∀ k, k ≠ w.slot → t.slot p k = s.slot p k
  other : ∀ q, q ≠ p → r.waiter q = none → t.port q = s.port q ∧ ∀ k, t.slot q k = s.slot q k
  chan : ∀ ch, s.boundChannel r.key ≠ some ch → t.chan ch = s.chan ch

section
variable (s : State) (i : RecIx) (r : Record) (p : Port) (w : Waiter) (cause : Option Reason)

theorem State.dropWaiter_pass (port : w.port = p) :
    PassLocal (s.dropWaiter i r w cause) ((s.dropWaiter i r w cause).grantPass i) i (r.dropWaiter p) := by
  subst port
  exact State.grantPass_local _ i _ ((s.dropWaiter_record i i r w cause).trans (if_pos rfl))

theorem Record.waiter_dropWaiter_self : (r.dropWaiter p).waiter p = none := by
  rw [Record.waiter_dropWaiter, if_pos rfl]

theorem State.dropWaiter_passed (port : w.port = p) :
    EntryPassed s ((s.dropWaiter i r w cause).grantPass i) i r p w := by
  have pass := s.dropWaiter_pass i r p w cause port
  subst port
  have bound : ∀ key, (s.dropWaiter i r w cause).boundChannel key = s.boundChannel key :=
    State.boundChannel_of_cfg (s.dropWaiter_frame i r w cause).cfg
  have slot : ∀ q k, (q ≠ w.port ∨ k ≠ w.slot) → (s.dropWaiter i r w cause).slot q k = s.slot q k := by
    intro q k other
    rw [State.dropWaiter_slot, if_neg]
    rintro ⟨port, slot⟩
    exact other.elim (· port) (· slot)
  have port : ∀ q, q ≠ w.port → (s.dropWaiter i r w cause).port q = s.port q := by
    intro q other
    rw [State.dropWaiter_port]
    cases cause with
    | none => rfl
    | some reason => exact if_neg other
  constructor
  case passDone => exact State.grantPass_passDone _ i
  case record =>
    intro r' after
    obtain ⟨key, others⟩ := pass.record_eq r' after
    exact ⟨key, others w.port (r.waiter_dropWaiter_self w.port)⟩
  case record_ne =>
    intro j ne
    rw [pass.record_ne j ne, State.dropWaiter_record, if_neg ne]
  case slot_ne =>
    exact fun k ne => (pass.slot w.port (r.waiter_dropWaiter_self w.port) k).trans (slot w.port k (Or.inr ne))
  case other =>
    intro q ne idle
    have idle' : (r.dropWaiter w.port).waiter q = none := by rw [Record.waiter_dropWaiter, if_neg ne, idle]
    exact ⟨(pass.port q idle').trans (port q ne), fun k => (pass.slot q idle' k).trans (slot q k (Or.inl ne))⟩
  case chan =>
    intro ch unbound
    rw [pass.chan ch (by rw [bound]; exact unbound), State.dropWaiter_chan]

theorem State.dropWaiter_passed_port (port : w.port = p) :
    ((s.dropWaiter i r w cause).grantPass i).port p = (s.dropWaiter i r w cause).port p ∧
    ((s.dropWaiter i r w cause).grantPass i).slot p w.slot = (s.dropWaiter i r w cause).slot p w.slot := by
  have pass := s.dropWaiter_pass i r p w cause port
  exact ⟨pass.port p (r.waiter_dropWaiter_self p), pass.slot p (r.waiter_dropWaiter_self p) w.slot⟩

theorem State.departWaiter_of_head (head : r.headIs w.port = true) :
    s.departWaiter i r w cause = (s.dropWaiter i r w cause).grantPass i := by
  rw [State.departWaiter, head]
  rfl

theorem State.departWaiter_of_behind (behind : r.headIs w.port = false) :
    s.departWaiter i r w cause = (s.dropWaiter i r w cause).retire i := by
  rw [State.departWaiter, behind]
  rfl

end

/-! ### CANCEL -/

/-- Settles O16: the refusal of the body, the departure behind the head, and `State.dropWaiter_passed`. -/
theorem cancelOutcome : Obligations.CancelOutcome := by
  unfold Obligations.CancelOutcome
  intro s p tag key c taken attached
  let s' : State := { s with served := p }
  refine ⟨fun unwaiting => ?_, fun i r w waiting => ?_⟩
  · refine exec_of_answer (exec_cancel p key s) taken attached ?_
    have nothing : s'.waitingOf p key = none := unwaiting
    show cancelBody p key s' = _
    simp only [cancelBody, nothing]
    rfl
  · intro gone head
    obtain ⟨look, entry⟩ := State.waitingOf_eq_some_iff.mp waiting
    have named : r.key = key := State.lookRecord_key look
    have port : w.port = p := Record.waiter_port entry
    have row : exec c s = .next ((s'.departWaiter i r w none).placeReply p tag c .ok .none) := by
      have found : s'.waitingOf p key = some (i, r, w) := waiting
      rw [exec_cancel, State.runCommand_attached taken attached]
      show Host.Outcome.next ((cancelBody p key s').st.placeReply p tag c (cancelBody p key s').status
        (cancelBody p key s').fields) = _
      simp only [cancelBody, found]
    have left : (s'.dropWaiter i r w none).retire i = gone := s'.dropWaiter_none_retire i r p w port
    have test : r.headIs w.port = true ↔ head := by rw [port]; exact r.headIs_iff p
    refine ⟨fun behind => ?_, fun first => ?_⟩
    · rw [row, State.departWaiter_of_behind s' i r w none (Bool.eq_false_iff.mpr (mt test.mp behind)), left]
    · intro t
      have passed : t = (s'.dropWaiter i r w none).grantPass i := by
        rw [← State.grantPass_retire, left]
      obtain ⟨passDone, record, record_ne, slot_ne, other, chan⟩ := s'.dropWaiter_passed i r p w none port
      obtain ⟨port', slot⟩ := s'.dropWaiter_passed_port i r p w none port
      rw [named] at record chan
      rw [row, State.departWaiter_of_head s' i r w none (test.mpr first), passed]
      refine ⟨rfl, (s'.dropWaiter_frame i r w none).trans (State.grantPass_frame _ i), passDone, record, record_ne,
        ?_, slot_ne, ?_, other, chan⟩
      · rw [slot, State.dropWaiter_slot, if_pos ⟨port.symm, rfl⟩, if_pos rfl]
      · rw [port', State.dropWaiter_port]
        rfl

/-! ### WAIT_EXPIRY -/

theorem exec_waitExpiry_of_ready {s : State} {p : Port} {key : Word} (ready : s.device = .ready) :
    exec (.waitExpiry p key) s = .next (s.expireWait p key) := by
  show execWaitExpiry p key s = _
  rw [execWaitExpiry, if_pos ready]

theorem State.expireWait_of_due {s : State} {p : Port} {key : Word} {i : RecIx} {r : Record} {w : Waiter}
    (waiting : s.waitingOf p key = some (i, r, w)) (queued : w.state = .queued) (due : w.deadline = s.now) :
    s.expireWait p key = s.departWaiter i r w (some .waitExpired) := by
  simp only [State.expireWait, waiting]
  exact if_pos ⟨queued, (s.reached_iff w.deadline).mpr due⟩

theorem State.expireWait_of_notDue {s : State} {p : Port} {key : Word}
    (notDue : ∀ i r w, s.waitingOf p key = some (i, r, w) → w.state = .reserved ∨ w.deadline ≠ s.now) :
    s.expireWait p key = s := by
  unfold State.expireWait
  split
  · rename_i i r w waiting
    refine if_neg ?_
    rintro ⟨queued, reached⟩
    rcases notDue i r w waiting with reserved | other
    · rw [queued] at reserved; cases reserved
    · exact other ((s.reached_iff w.deadline).mp reached)
  · rfl

/-- Settles O22: the expiry in and out of READY, of a RESERVED entry and at its deadline, and then
`State.dropWaiter_passed`. -/
theorem waitExpiryWithdraws : Obligations.WaitExpiryWithdraws := by
  unfold Obligations.WaitExpiryWithdraws
  intro s p key
  refine ⟨fun nothing => ?_, fun i r w ready waiting => ⟨fun notDue => ?_, fun queued due => ?_⟩⟩
  · by_cases ready : s.device = .ready
    · rw [exec_waitExpiry_of_ready ready, State.expireWait_of_notDue]
      intro i r w waiting
      rw [nothing.resolve_left (fun hd => hd ready)] at waiting
      cases waiting
    · exact congrArg Host.Outcome.next (if_neg ready)
  · rw [exec_waitExpiry_of_ready ready, State.expireWait_of_notDue]
    intro i' r' w' waiting'
    cases waiting.symm.trans waiting'
    exact notDue
  · intro u gone head
    obtain ⟨look, entry⟩ := State.waitingOf_eq_some_iff.mp waiting
    have named : r.key = key := State.lookRecord_key look
    have port : w.port = p := Record.waiter_port entry
    have left : (s.dropWaiter i r w (some .waitExpired)).retire i = gone := by
      rw [s.dropWaiter_some_retire i r p w port, named]
    have test : r.headIs w.port = true ↔ head := by rw [port]; exact r.headIs_iff p
    rw [exec_waitExpiry_of_ready ready, State.expireWait_of_due waiting queued due]
    refine ⟨fun behind => ?_, fun first => ?_⟩
    · rw [State.departWaiter_of_behind s i r w _ (Bool.eq_false_iff.mpr (mt test.mp behind)), left]
    · intro t
      have passed : t = (s.dropWaiter i r w (some .waitExpired)).grantPass i := by
        rw [← State.grantPass_retire, left]
      obtain ⟨passDone, record, record_ne, slot_ne, other, chan⟩ :=
        s.dropWaiter_passed i r p w (some .waitExpired) port
      obtain ⟨port', slot⟩ := s.dropWaiter_passed_port i r p w (some .waitExpired) port
      rw [named] at record chan
      rw [State.departWaiter_of_head s i r w _ (test.mpr first), passed]
      refine ⟨rfl, (s.dropWaiter_frame i r w _).trans (State.grantPass_frame _ i), passDone, record, record_ne,
        ?_, slot_ne, ?_, other, chan⟩
      · rw [slot, State.dropWaiter_slot, if_pos ⟨port.symm, rfl⟩, named]
        simp
      · rw [port', State.dropWaiter_port, named, port]
        exact if_pos rfl

/-! ### The report of availability -/

theorem firstIndexFrom_eq_some_iff {start : Nat} {f : RecIx → Bool} {i : RecIx} :
    firstIndexFrom start f = some i ↔
      start ≤ i.val ∧ f i = true ∧ ∀ j : RecIx, start ≤ j.val → j < i → f j = false := by
  unfold firstIndexFrom
  rw [find?_finRange_eq_some_iff]
  simp only [Bool.and_eq_true, decide_eq_true_eq, Bool.and_eq_false_iff, decide_eq_false_iff_not, and_assoc]
  refine and_congr_right fun _ => and_congr_right fun _ => forall_congr' fun j => ?_
  tauto

theorem firstIndexFrom_eq_none_iff {start : Nat} {f : RecIx → Bool} :
    firstIndexFrom start f = none ↔ ∀ i : RecIx, start ≤ i.val → f i = false := by
  simp [firstIndexFrom]

/-- Where a report goes on after an index: to the next one, if anything of it stands behind. -/
theorem firstIndexFrom_map_eq (i : RecIx) (f : RecIx → Bool) [Decidable (∃ j, i < j ∧ f j = true)] :
    (firstIndexFrom (i.val + 1) f).map (fun _ => i.val + 1) =
      if ∃ j, i < j ∧ f j = true then some (i.val + 1) else none := by
  cases found : firstIndexFrom (i.val + 1) f with
  | none =>
    rw [if_neg]
    · rfl
    · rintro ⟨j, behind, stands⟩
      rw [firstIndexFrom_eq_none_iff.mp found j behind] at stands
      cases stands
  | some j =>
    obtain ⟨behind, stands, -⟩ := firstIndexFrom_eq_some_iff.mp found
    rw [if_pos ⟨j, behind, stands⟩]
    rfl

theorem State.headReserved_iff (s : State) (i : RecIx) : s.headReserved i = true ↔
    ∃ r w rest, s.record i = some r ∧ r.waiters = w :: rest ∧ w.state = .reserved := by
  unfold State.headReserved
  rw [Option.any_eq_true]
  refine exists_congr fun r => ?_
  cases waits : r.waiters with
  | nil => simp
  | cons w rest => simp

/-- Settles O24: the first index of the report, its pass, and where the report goes on. -/
theorem reservedHeadPassRuns : Obligations.ReservedHeadPassRuns := by
  classical
  unfold Obligations.ReservedHeadPassRuns
  intro s
  refine ⟨s.headReserved_iff, fun idle => ?_, fun start ready report => ⟨fun nothing => ?_,
    fun i reach reserved first => ?_⟩⟩
  · show execReservedHeadPass s = _
    unfold execReservedHeadPass
    split
    · rename_i start ready report
      rcases idle with other | nothing
      · exact absurd ready other
      · rw [nothing] at report; cases report
    · rfl
  · show execReservedHeadPass s = _
    simp only [execReservedHeadPass, ready, report, firstIndexFrom_eq_none_iff.mpr nothing]
  · intro t
    have next : firstIndexFrom start s.headReserved = some i :=
      firstIndexFrom_eq_some_iff.mpr ⟨reach, reserved, first⟩
    have row : exec .reservedHeadPass s = .next { t with
        availSweep := if ∃ j, i < j ∧ t.headReserved j = true then some (i.val + 1) else none } := by
      show execReservedHeadPass s = _
      simp only [execReservedHeadPass, ready, report, next, firstIndexFrom_map_eq]
      rfl
    refine ⟨fun behind => by rw [row, if_pos behind], fun nothing => ?_⟩
    rw [row, if_neg]
    rintro ⟨j, behind, stands⟩
    rw [nothing j behind] at stands
    cases stands

/-! ### The report of a fault -/

theorem State.hasWaiter_iff (s : State) (i : RecIx) :
    s.hasWaiter i = true ↔ ∃ r, s.record i = some r ∧ r.waiters ≠ [] := by
  simp [State.hasWaiter, Option.any_eq_true]

/-- What the departure of every waiter of a record leaves, with a notice of a reason to each (R63). -/
structure Withdrawn (s t : State) (i : RecIx) (r : Record) (reason : Reason) : Prop where
  frame : ClaimFrame s t
  tok : t.tok = s.tok
  store : t.store = s.store
  faultSweep : t.faultSweep = s.faultSweep
  chan : ∀ ch, t.chan ch = s.chan ch
  record : t.record i = some { r with waiters := [] }
  record_ne : ∀ j, j ≠ i → t.record j = s.record j
  withdrawn : ∀ w ∈ r.waiters, t.slot w.port w.slot = .pinned r.key 0#32 ∧
    (∀ k, k ≠ w.slot → t.slot w.port k = s.slot w.port k) ∧
    t.port w.port = { s.port w.port with
      notices := (s.port w.port).notices ++
        [⟨(s.port w.port).seq, .withdrawn, r.key, w.slot, 0#32, reason, s.now⟩]
      seq := (s.port w.port).seq + 1#8 }
  other : ∀ q, (∀ w ∈ r.waiters, w.port ≠ q) → t.port q = s.port q ∧ ∀ k, t.slot q k = s.slot q k

theorem State.dropWaiter_same (s : State) (i : RecIx) (r : Record) (w : Waiter) (cause : Option Reason) :
    (s.dropWaiter i r w cause).tok = s.tok ∧ (s.dropWaiter i r w cause).store = s.store ∧
      (s.dropWaiter i r w cause).faultSweep = s.faultSweep := by
  cases cause <;> exact ⟨rfl, rfl, rfl⟩

theorem Nat.repeat_succ_start {α : Type} (f : α → α) (n : Nat) (a : α) :
    Nat.repeat f (n + 1) a = Nat.repeat f n (f a) := by
  induction n with
  | zero => rfl
  | succ n ih => exact congrArg f ih

/-- The withdrawals of a record, oldest first, by induction on its queue. -/
theorem State.withdrawOldest_repeat (s : State) (i : RecIx) (r : Record) (reason : Reason)
    (stands : s.record i = some r) (nodup : (r.waiters.map fun w => w.port).Nodup) :
    Withdrawn s (Nat.repeat (fun s => State.withdrawOldest reason s i) r.waiters.length s) i r reason := by
  induction waits : r.waiters generalizing s r with
  | nil =>
    refine ⟨ClaimFrame.refl s, rfl, rfl, rfl, fun _ => rfl, ?_, fun _ _ => rfl, ?_, fun _ _ => ⟨rfl, fun _ => rfl⟩⟩
    · have same : ({ r with waiters := [] } : Record) = r := by rw [← waits]
      rw [same]; exact stands
    · rw [waits]; exact fun w mem => absurd mem List.not_mem_nil
  | cons w rest ih =>
    rw [waits, List.map_cons, List.nodup_cons] at nodup
    have others : ∀ v ∈ rest, v.port ≠ w.port := fun v mem same =>
      nodup.1 (same ▸ List.mem_map_of_mem mem)
    have dropped : r.dropWaiter w.port = { r with waiters := rest } := by
      have kept : rest.filter (fun v => v.port != w.port) = rest :=
        List.filter_eq_self.mpr fun v mem => by simpa using others v mem
      rw [Record.dropWaiter, waits]
      simp [kept]
    let u := s.dropWaiter i r w (some reason)
    have first : State.withdrawOldest reason s i = u := by simp only [State.withdrawOldest, stands, waits, u]
    have record : u.record i = some { r with waiters := rest } := by
      rw [State.dropWaiter_record, if_pos rfl, dropped]
    have last := ih u { r with waiters := rest } record nodup.2 rfl
    have now : u.now = s.now := (s.dropWaiter_frame i r w (some reason)).now
    obtain ⟨tok, store, sweep⟩ := s.dropWaiter_same i r w (some reason)
    have port_ne : ∀ q, q ≠ w.port → u.port q = s.port q := fun q ne => by
      rw [State.dropWaiter_port]; exact if_neg ne
    have slot_ne : ∀ q k, (q ≠ w.port ∨ k ≠ w.slot) → u.slot q k = s.slot q k := by
      intro q k other
      rw [State.dropWaiter_slot, if_neg]
      rintro ⟨port, slot⟩
      exact other.elim (· port) (· slot)
    rw [List.length_cons, Nat.repeat_succ_start, first]
    refine ⟨(s.dropWaiter_frame i r w (some reason)).trans last.frame, last.tok.trans tok, last.store.trans store,
      last.faultSweep.trans sweep, fun ch => (last.chan ch).trans (State.dropWaiter_chan s i r w (some reason) ch),
      last.record, fun j ne => ?_, ?_, fun q unnamed => ?_⟩
    · rw [last.record_ne j ne, State.dropWaiter_record, if_neg ne]
    · intro v mem
      rw [waits] at mem
      rcases List.mem_cons.mp mem with rfl | mem
      · obtain ⟨port, slots⟩ := last.other v.port fun x mem => others x mem
        refine ⟨?_, fun k ne => ?_, ?_⟩
        · rw [slots, State.dropWaiter_slot, if_pos ⟨rfl, rfl⟩]; simp
        · rw [slots, slot_ne v.port k (Or.inr ne)]
        · rw [port, State.dropWaiter_port]; exact if_pos rfl
      · obtain ⟨slot, slots, port⟩ := last.withdrawn v mem
        refine ⟨slot, fun k ne => ?_, ?_⟩
        · rw [slots k ne, slot_ne v.port k (Or.inl (others v mem))]
        · rw [port, port_ne v.port (others v mem), now]
    · rw [waits] at unnamed
      obtain ⟨port, slots⟩ := last.other q fun x mem => unnamed x (List.mem_cons_of_mem _ mem)
      have ne : q ≠ w.port := (unnamed w List.mem_cons_self).symm
      exact ⟨port.trans (port_ne q ne), fun k => (slots k).trans (slot_ne q k (Or.inl ne))⟩

/-- Settles O25: the first index of the report, its withdrawals by `State.withdrawOldest_repeat`, and where the
report goes on. -/
theorem tokenFaultWithdrawalRuns : Obligations.TokenFaultWithdrawalRuns := by
  classical
  unfold Obligations.TokenFaultWithdrawalRuns
  intro s
  refine ⟨s.hasWaiter_iff, fun idle => ?_, fun start ready report => ⟨fun nothing => ?_,
    fun i r reach stands waits first single fault => ?_⟩⟩
  · show execTokenFaultWithdrawal s = _
    unfold execTokenFaultWithdrawal
    split
    · rename_i start ready report
      rcases idle with other | nothing
      · exact absurd ready other
      · rw [nothing] at report; cases report
    · rfl
  · show execTokenFaultWithdrawal s = _
    simp only [execTokenFaultWithdrawal, ready, report, firstIndexFrom_eq_none_iff.mpr nothing]
  · have next : firstIndexFrom start s.hasWaiter = some i :=
      firstIndexFrom_eq_some_iff.mpr ⟨reach, (s.hasWaiter_iff i).mpr ⟨r, stands, waits⟩, first⟩
    have reason : s.tok.state.withdrawalReason = if s.tok.state = .storeFault then .storeFault else .tokensSpent := by
      rcases fault with state | state <;> rw [state] <;> rfl
    let u := Nat.repeat (fun s => State.withdrawOldest s.tok.state.withdrawalReason s i) r.waiters.length s
    have left := s.withdrawOldest_repeat i r s.tok.state.withdrawalReason stands single.1
    have count : s.waiterCount i = r.waiters.length := by simp only [State.waiterCount, stands]
    generalize withdrawn : Nat.repeat (fun v => State.withdrawOldest s.tok.state.withdrawalReason v i)
      r.waiters.length s = v at left
    have pass : s.withdrawRecord s.tok.state.withdrawalReason i = v.retire i := by
      rw [State.withdrawRecord, count, withdrawn]
      exact v.grantPass_noWaiters i _ left.record rfl
    have retired : v.retire i = if r.noHolder then v.setRecord i none else v := by
      rw [v.retire_eq i left.record]
      simp [Record.isEmpty, Record.noHolder, Record.holder]
    have row : exec .tokenFaultWithdrawal s = .next { v.retire i with
        faultSweep := if ∃ j, i < j ∧ (v.retire i).hasWaiter j = true then some (i.val + 1) else none } := by
      show execTokenFaultWithdrawal s = _
      simp only [execTokenFaultWithdrawal, ready, report, next, firstIndexFrom_map_eq, pass]
    have behind : (∃ j, i < j ∧ (v.retire i).hasWaiter j = true) ↔ ∃ j, i < j ∧ s.hasWaiter j = true := by
      refine exists_congr fun j => and_congr_right fun after => ?_
      have ne : j ≠ i := ne_of_gt after
      rw [State.hasWaiter_iff, State.hasWaiter_iff, State.retire_record_ne v i j ne, left.record_ne j ne]
    obtain ⟨ports, slots, chans⟩ := v.retire_same i
    have same : (v.retire i).tok = v.tok ∧ (v.retire i).store = v.store := by
      rw [retired]; split <;> exact ⟨rfl, rfl⟩
    have frame := left.frame.trans (v.retire_frame i)
    refine ⟨_, row, ⟨frame.device, frame.hold, frame.restartTick, frame.now, frame.served, frame.sessionCounter,
      frame.availSweep, frame.port, frame.floor, frame.active, frame.bootFloor, frame.chan, frame.ginhPin, frame.rows,
      frame.commitInput, frame.cfg, frame.supply, frame.rstLow, frame.factory, frame.pending, frame.free⟩,
      same.1.trans left.tok, same.2.trans left.store, fun ch => (chans ch).trans (left.chan ch), ?_,
      fun j ne => (State.retire_record_ne v i j ne).trans (left.record_ne j ne), fun w mem => ?_, fun q idle => ?_, ?_⟩
    · show (v.retire i).record i = _
      rw [retired]
      split
      · rw [State.record_setRecord, if_pos rfl]
      · exact left.record
    · obtain ⟨slot, others, port⟩ := left.withdrawn w mem
      rw [reason] at port
      exact ⟨(slots w.port w.slot).trans slot, fun k ne => (slots w.port k).trans (others k ne),
        (ports w.port).trans port⟩
    · obtain ⟨port, slot⟩ := left.other q ((Record.waiter_none_iff r q).mp idle)
      exact ⟨(ports q).trans port, fun k => (slots q k).trans (slot k)⟩
    · simp only [behind]

end Sys2Proof.Machine
end

section
/-! REVOKE (R28, R29): the removals as a fold over the targeted ports, each port's claim once, and then one
pass. -/

namespace Sys2Proof.Machine

/-! ### What else a pass leaves -/

/-- A slot that no waiter of the record waits in is left alone by a pass on it. -/
theorem State.grantPass_slot_ne {s : State} {i : RecIx} {r : Record} (stands : s.record i = some r) {q : Port}
    {k : SlotIx} (free : ∀ w ∈ r.waiters, w.port = q → w.slot ≠ k) : (s.grantPass i).slot q k = s.slot q k := by
  have kept : (∀ r', (s.grantPass i).record i = some r' → ∀ w ∈ r'.waiters, w.port = q → w.slot ≠ k) ∧
      (s.grantPass i).slot q k = s.slot q k := by
    refine State.grantPass_induction (motive := fun t =>
      (∀ r', t.record i = some r' → ∀ w ∈ r'.waiters, w.port = q → w.slot ≠ k) ∧ t.slot q k = s.slot q k)
      ?grant ?stop ?retire ⟨fun r' same => by cases stands.symm.trans same; exact free, rfl⟩
    case grant =>
      rintro t r w rest stands waits - ⟨free, before⟩
      have mine := free r stands
      rw [waits] at mine
      refine ⟨fun r' same v mem => ?_, ?_⟩
      · rw [State.grantHead_record, if_pos rfl] at same
        cases same
        exact mine v (List.mem_cons_of_mem _ mem)
      · rw [State.grantHead_slot, if_neg, before]
        rintro ⟨rfl, rfl⟩
        exact mine w List.mem_cons_self rfl rfl
    case stop =>
      rintro t r w rest stands waits - ⟨free, before⟩
      have mine := free r stands
      rw [waits] at mine
      refine ⟨fun r' same v mem => ?_, ?_⟩
      · obtain ⟨state, record⟩ := State.markReserved_record_head stands waits
        cases record.symm.trans same
        rcases List.mem_cons.mp mem with rfl | mem
        · exact mine w List.mem_cons_self
        · exact mine v (List.mem_cons_of_mem _ mem)
      · have slot : (t.markReserved i r w rest).slot q k = t.slot q k := by
          unfold State.markReserved
          split
          · dsimp only
            split
            · exact t.noteDemand_same.slot q k
            · rw [State.slot_setSlot, if_neg, State.setRecord_slot, t.noteDemand_same.slot]
              rintro ⟨rfl, rfl⟩
              exact mine w List.mem_cons_self rfl rfl
          · rfl
        rw [slot, before]
    case retire =>
      rintro t r stands empty ⟨free, before⟩
      refine ⟨fun r' same => ?_, before⟩
      rw [State.record_setRecord, if_pos rfl] at same
      cases same
  exact kept.2

theorem State.chans_ext {s t : State} (h : ∀ ch, t.chan ch = s.chan ch) : t.chans = s.chans :=
  Vector.ext fun i hi => h ⟨i, hi⟩

theorem Record.ext_holder {r r' : Record} (key : r.key = r'.key) (holders : ∀ q, r.holder q = r'.holder q)
    (waiters : r.waiters = r'.waiters) : r = r' := by
  obtain ⟨k, h, w⟩ := r
  obtain ⟨k', h', w'⟩ := r'
  cases key
  cases waiters
  congr
  exact Vector.ext fun i hi => holders ⟨i, hi⟩

/-! ### Pass or retirement -/

section
variable {s : State} {i : RecIx} {r : Record}

theorem State.passOrRetire_holder (stands : s.record i = some r) (single : r.onePerPort) (passed : Bool) {q : Port}
    {h : Holding} (held : r.holder q = some h) :
    ∃ r', (s.passOrRetire i passed).record i = some r' ∧ r'.holder q = some h := by
  cases passed with
  | true => exact State.grantPass_holder stands single held
  | false =>
    have kept : s.retire i = s := State.retire_of_nonempty fun x same => by
      cases stands.symm.trans same
      rw [Bool.eq_false_iff, Ne, Record.isEmpty_iff]
      intro empty
      rw [empty.1 q] at held
      cases held
    exact ⟨r, (congrArg (fun v => v.record i) kept).trans stands, held⟩

theorem State.passOrRetire_waiter (stands : s.record i = some r) (single : r.onePerPort) (passed : Bool) {w : Waiter}
    (mem : w ∈ r.waiters) : WaiterStands (s.passOrRetire i passed) i w s.now := by
  cases passed with
  | true => exact State.grantPass_waiter stands single mem
  | false =>
    have kept : s.retire i = s := State.retire_of_nonempty fun x same => by
      cases stands.symm.trans same
      rw [Bool.eq_false_iff, Ne, Record.isEmpty_iff]
      intro empty
      rw [empty.2] at mem
      cases mem
    exact ⟨r, (congrArg (fun v => v.record i) kept).trans stands, Or.inl ⟨w.state, mem⟩⟩

end

/-! ### One claim removed -/

/-- The update of a state that differs in the claim table, the slots, the ports and the channels alone. -/
def ClaimsOnly (s t : State) : Prop :=
  t = { s with table := t.table, slots := t.slots, ports := t.ports, chans := t.chans }

theorem ClaimsOnly.refl (s : State) : ClaimsOnly s s := rfl

theorem ClaimsOnly.trans {s t u : State} (h : ClaimsOnly s t) (k : ClaimsOnly t u) : ClaimsOnly s u := by
  unfold ClaimsOnly at h k ⊢
  rw [k, h]

theorem State.reportEnd_claimsOnly (s : State) (key : Word) (mode : Mode) : ClaimsOnly s (s.reportEnd key mode) := by
  obtain ⟨chans, report⟩ := s.reportEnd_eq key mode
  rw [report]
  rfl

theorem State.endHolding_claimsOnly (s : State) (i : RecIx) (r : Record) (p : Port) (h : Holding)
    (cause : Option NoticeKind) : ClaimsOnly s (s.endHolding i r p h cause) := by
  have ended : ∀ u : State, ClaimsOnly s u → ClaimsOnly s (u.reportEnd r.key h.mode) :=
    fun u same => same.trans (u.reportEnd_claimsOnly _ _)
  unfold State.endHolding
  cases cause with
  | none => exact ended _ rfl
  | some kind => exact ended _ rfl

theorem State.dropWaiter_claimsOnly (s : State) (i : RecIx) (r : Record) (w : Waiter) (cause : Option Reason) :
    ClaimsOnly s (s.dropWaiter i r w cause) := by
  unfold State.dropWaiter
  cases cause <;> rfl

theorem State.revokeClaim_claimsOnly (i : RecIx) (s : State) (p : Port) :
    ClaimsOnly s (State.revokeClaim i s p) := by
  unfold State.revokeClaim
  split
  · exact ClaimsOnly.refl s
  · split
    · exact s.endHolding_claimsOnly _ _ _ _ _
    · split
      · exact s.dropWaiter_claimsOnly _ _ _ _
      · exact ClaimsOnly.refl s

theorem State.revokeClaim_of_holder {s : State} {i : RecIx} {r : Record} {q : Port} {h : Holding}
    (stands : s.record i = some r) (held : r.holder q = some h) :
    State.revokeClaim i s q = s.endHolding i r q h (some .revoked) := by
  simp only [State.revokeClaim, stands, held]

theorem State.revokeClaim_of_waiter {s : State} {i : RecIx} {r : Record} {q : Port} {w : Waiter}
    (stands : s.record i = some r) (unheld : r.holder q = none) (waiting : r.waiter q = some w) :
    State.revokeClaim i s q = s.dropWaiter i r w (some .revoked) := by
  simp only [State.revokeClaim, stands, unheld, waiting]

/-- The channel of a removed claim: told of the end of an EXCLUSIVE holding. -/
def Record.endsExclusive (s : State) (r : Record) (q : Port) (ch : Channel) : Prop :=
  ∃ h ∈ r.holder q, h.mode = .exclusive ∧ s.boundChannel r.key = some ch

theorem GateChannel.ended_ended (c : GateChannel) (now : Word) : (c.ended now).ended now = c.ended now := by
  obtain ⟨key, guard, state, ginh⟩ := c
  by_cases zero : guard = 0#16 <;> cases state <;> simp [GateChannel.ended, zero]

/-! ### The removals -/

/-- The record, ports, slots and channels after the claims of some ports have been revoked. Ports and slots are
those of a revocation of that one port's claim. -/
structure ClaimsRevoked (s t : State) (i : RecIx) (r : Record) (l : List Port) : Prop where
  only : ClaimsOnly s t
  record : ∃ left, t.record i = some left ∧ left.key = r.key ∧
    (left.waiters = r.waiters.filter fun w => decide (w.port ∉ l)) ∧
    ∀ q, left.holder q = if q ∈ l then none else r.holder q
  record_ne : ∀ j, j ≠ i → t.record j = s.record j
  port : ∀ q, t.port q = if q ∈ l then (State.revokeClaim i s q).port q else s.port q
  slot : ∀ q k, t.slot q k = if q ∈ l then (State.revokeClaim i s q).slot q k else s.slot q k
  ended : ∀ ch, (∃ q ∈ l, r.endsExclusive s q ch) → t.chan ch = (s.chan ch).ended s.now
  chan : ∀ ch, (¬∃ q ∈ l, r.endsExclusive s q ch) → t.chan ch = s.chan ch

theorem List.filter_notMem_append {r : Record} (l : List Port) (q : Port) :
    (r.waiters.filter fun w => decide (w.port ∉ l ++ [q])) =
      (r.waiters.filter fun w => decide (w.port ∉ l)).filter fun w => w.port != q := by
  rw [List.filter_filter]
  refine List.filter_congr fun w _ => ?_
  rw [Bool.eq_iff_iff]
  simp [and_comm]

theorem Record.waiter_filter {r left : Record} {l : List Port}
    (waiters : left.waiters = r.waiters.filter fun w => decide (w.port ∉ l)) (q : Port) :
    left.waiter q = if q ∈ l then none else r.waiter q := by
  unfold Record.waiter
  rw [waiters, List.find?_filter]
  split
  · rename_i removed
    rw [List.find?_eq_none]
    intro w _
    simp only [decide_eq_true_eq, beq_iff_eq, not_and]
    rintro kept rfl
    exact kept removed
  · rename_i stays
    congr 1
    funext w
    by_cases port : w.port = q
    · subst port; simp [stays]
    · simp [port]

theorem Record.endsExclusive_of_same {s t : State} {r left : Record} {q : Port} {ch : Channel}
    (holder : left.holder q = r.holder q) (key : left.key = r.key)
    (bound : ∀ key, t.boundChannel key = s.boundChannel key) :
    left.endsExclusive t q ch ↔ r.endsExclusive s q ch := by
  unfold Record.endsExclusive
  rw [holder, key, bound]

/-- One more claim revoked. -/
theorem ClaimsRevoked.snoc {s t : State} {i : RecIx} {r : Record} {l : List Port} {q : Port}
    (before : ClaimsRevoked s t i r l) (stands : s.record i = some r) (single : r.onePerPort)
    (fresh : q ∉ l) (claims : r.hasClaim q = true) :
    ClaimsRevoked s (State.revokeClaim i t q) i r (l ++ [q]) := by
  obtain ⟨left, record, key, waiters, holders⟩ := before.record
  have port : t.port q = s.port q := (before.port q).trans (if_neg fresh)
  have slot : ∀ k, t.slot q k = s.slot q k := fun k => (before.slot q k).trans (if_neg fresh)
  have now : t.now = s.now := by rw [before.only]
  have bound : ∀ key, t.boundChannel key = s.boundChannel key := State.boundChannel_of_cfg (by rw [before.only])
  have holder : left.holder q = r.holder q := (holders q).trans (if_neg fresh)
  have waiter : left.waiter q = r.waiter q := (Record.waiter_filter waiters q).trans (if_neg fresh)
  have ends : ∀ ch, left.endsExclusive t q ch ↔ r.endsExclusive s q ch :=
    fun ch => Record.endsExclusive_of_same holder key bound
  have member : ∀ x, x ∈ l ++ [q] ↔ x ∈ l ∨ x = q := by simp
  have chans : ∀ (u : State) (ch : Channel), (left.endsExclusive t q ch → u.chan ch = (t.chan ch).ended t.now) →
      (¬left.endsExclusive t q ch → u.chan ch = t.chan ch) →
      ((∃ x ∈ l ++ [q], r.endsExclusive s x ch) → u.chan ch = (s.chan ch).ended s.now) ∧
      ((¬∃ x ∈ l ++ [q], r.endsExclusive s x ch) → u.chan ch = s.chan ch) := by
    intro u ch now_ends stays
    by_cases mine : left.endsExclusive t q ch
    · refine ⟨fun _ => ?_, fun nothing => absurd ⟨q, by simp, (ends ch).mp mine⟩ nothing⟩
      rw [now_ends mine, now]
      by_cases earlier : ∃ x ∈ l, r.endsExclusive s x ch
      · rw [before.ended ch earlier, GateChannel.ended_ended]
      · rw [before.chan ch earlier]
    · rw [stays mine]
      refine ⟨fun ⟨x, mem, theirs⟩ => ?_, fun nothing => ?_⟩
      · rcases (member x).mp mem with mem | rfl
        · exact before.ended ch ⟨x, mem, theirs⟩
        · exact absurd ((ends ch).mpr theirs) mine
      · exact before.chan ch fun ⟨x, mem, theirs⟩ => nothing ⟨x, List.mem_append_left _ mem, theirs⟩
  cases held : r.holder q with
  | some h =>
    have here := State.revokeClaim_of_holder record (holder.trans held)
    have there := State.revokeClaim_of_holder stands held
    refine ⟨before.only.trans (State.revokeClaim_claimsOnly i t q), ?_, fun j ne => ?_, fun x => ?_,
      fun x k => ?_, fun ch => ?_, fun ch => ?_⟩
    · refine ⟨left.setHolder q none, ?_, key, ?_, fun x => ?_⟩
      · rw [here, State.endHolding_record, if_pos rfl]
      · have nothing : ∀ w ∈ r.waiters, w.port ≠ q := by
          rintro w mem rfl
          rw [single.2 w mem] at held
          cases held
        rw [Record.setHolder_waiters, waiters, List.filter_notMem_append, List.filter_filter]
        refine List.filter_congr fun w mem => ?_
        simp [nothing w mem]
      · rw [Record.holder_setHolder, holders]
        by_cases same : x = q <;> simp [same]
    · rw [here, State.endHolding_record, if_neg ne, before.record_ne j ne]
    · by_cases same : x = q
      · subst same
        rw [if_pos (by simp), there, here, State.endHolding_port, State.endHolding_port, port, key, now]
      · rw [here, State.endHolding_port]
        simp [same, before.port x]
    · by_cases same : x = q
      · subst same
        rw [if_pos (by simp), there, here, State.endHolding_slot, State.endHolding_slot, slot, key]
        simp
      · rw [here, State.endHolding_slot]
        simp [same, before.slot x]
    · rw [here]
      refine (chans _ ch (fun mine => ?_) fun other => ?_).1
      · obtain ⟨h', held', exclusive, isBound⟩ := mine
        cases (holder.trans held).symm.trans held'
        rw [State.endHolding_chan, if_pos ⟨exclusive, isBound⟩]
      · rw [State.endHolding_chan, if_neg]
        exact fun h' => other ⟨h, holder.trans held, h'⟩
    · rw [here]
      refine (chans _ ch (fun mine => ?_) fun other => ?_).2
      · obtain ⟨h', held', exclusive, isBound⟩ := mine
        cases (holder.trans held).symm.trans held'
        rw [State.endHolding_chan, if_pos ⟨exclusive, isBound⟩]
      · rw [State.endHolding_chan, if_neg]
        exact fun h' => other ⟨h, holder.trans held, h'⟩
  | none =>
    have occurs : ∃ w, r.waiter q = some w := by
      rw [Record.hasClaim, held] at claims
      exact Option.isSome_iff_exists.mp (by simpa using claims)
    obtain ⟨w, waiting⟩ := occurs
    have wport : w.port = q := Record.waiter_port waiting
    have here := State.revokeClaim_of_waiter record (holder.trans held) (waiter.trans waiting)
    have there := State.revokeClaim_of_waiter stands held waiting
    have unheld : ∀ ch, ¬left.endsExclusive t q ch := by
      rintro ch ⟨h, held', -⟩
      rw [holder, held] at held'
      cases held'
    refine ⟨before.only.trans (State.revokeClaim_claimsOnly i t q), ?_, fun j ne => ?_, fun x => ?_,
      fun x k => ?_, fun ch => ?_, fun ch => ?_⟩
    · refine ⟨left.dropWaiter q, ?_, key, ?_, fun x => ?_⟩
      · rw [here, State.dropWaiter_record, if_pos rfl, wport]
      · rw [List.filter_notMem_append, ← waiters]
        rfl
      · show left.holder x = _
        rw [holders]
        by_cases same : x = q
        · subst same; simp [held]
        · simp [same]
    · rw [here, State.dropWaiter_record, if_neg ne, before.record_ne j ne]
    · by_cases same : x = q
      · subst same
        rw [if_pos (by simp), there, here, State.dropWaiter_port, State.dropWaiter_port]
        simp [wport, port, key, now]
      · rw [here, State.dropWaiter_port]
        simp [same, wport, before.port x]
    · by_cases same : x = q
      · subst same
        rw [if_pos (by simp), there, here, State.dropWaiter_slot, State.dropWaiter_slot, slot, key]
      · rw [here, State.dropWaiter_slot]
        simp [same, wport, before.slot x]
    · rw [here]
      exact (chans _ ch (fun mine => absurd mine (unheld ch)) fun _ => State.dropWaiter_chan t i left w _ ch).1
    · rw [here]
      exact (chans _ ch (fun mine => absurd mine (unheld ch)) fun _ => State.dropWaiter_chan t i left w _ ch).2

/-- The claims of a list of ports revoked, one after another. -/
theorem State.revokeClaims {s : State} {i : RecIx} {r : Record} (stands : s.record i = some r)
    (single : r.onePerPort) (l : List Port) (nodup : l.Nodup) (claims : ∀ q ∈ l, r.hasClaim q = true) :
    ClaimsRevoked s (l.foldl (State.revokeClaim i) s) i r l := by
  induction l using List.reverseRecOn with
  | nil =>
    refine ⟨ClaimsOnly.refl s, ⟨r, stands, rfl, ?_, fun q => ?_⟩, fun _ _ => rfl, fun q => ?_, fun q k => ?_,
      fun ch occurs => ?_, fun _ _ => rfl⟩
    · simp
    · simp
    · simp
    · simp
    · obtain ⟨q, mem, -⟩ := occurs; cases mem
  | append_singleton l q ih =>
    rw [List.nodup_append] at nodup
    obtain ⟨front, -, apart⟩ := nodup
    rw [List.foldl_append]
    exact (ih front fun x mem => claims x (List.mem_append_left _ mem)).snoc stands single
      (fun mem => apart q mem q (by simp) rfl) (claims q (by simp))

/-! ### The body of REVOKE -/

section
variable {s : State} {p : Port} {key : Word} {target : Byte}

theorem revokeBody_of_noRight (right : (s.settings p).rights.revoke = false) :
    revokeBody p key target s = s.answer .noRight := by simp [revokeBody, right]

theorem targetOfCode_eq_none_iff (b : Byte) : targetOfCode b = none ↔ ¬(b.toNat < 4 ∨ b = 0xFF#8) := by
  unfold targetOfCode
  split
  · rename_i all; simp [all]
  · rename_i one
    rw [Option.map_eq_none_iff, portOfCode_eq_none_iff]
    simp [one]

theorem exists_target (inRange : target.toNat < 4 ∨ target = 0xFF#8) : ∃ t, targetOfCode target = some t ∧
    ∀ q : Port, t.includes q = true ↔ target = 0xFF#8 ∨ target.toNat = q.val := by
  unfold targetOfCode
  by_cases all : target = 0xFF#8
  · exact ⟨.all, if_pos all, fun q => by simp [Target.includes, all]⟩
  · obtain bound := inRange.resolve_right all
    refine ⟨.port ⟨target.toNat, bound⟩, ?_, fun q => ?_⟩
    · rw [if_neg all, portOfCode_of_toNat (q := ⟨target.toNat, bound⟩) rfl]
      rfl
    · simp [Target.includes, all, Fin.ext_iff]

variable (right : (s.settings p).rights.revoke = true)
include right

theorem revokeBody_of_badParam (bad : ¬(key ≠ 0#32 ∧ (target.toNat < 4 ∨ target = 0xFF#8))) :
    revokeBody p key target s = s.answer .badParam := by
  unfold revokeBody
  rw [if_neg (by simp [right])]
  cases named : targetOfCode target with
  | none => rfl
  | some t =>
    have inRange : target.toNat < 4 ∨ target = 0xFF#8 := by
      by_contra other
      rw [(targetOfCode_eq_none_iff target).mpr other] at named
      cases named
    have zero : key = 0#32 := by
      by_contra nonzero
      exact bad ⟨nonzero, inRange⟩
    exact if_pos zero

variable {t : Target} (named : targetOfCode target = some t) (nonzero : key ≠ 0#32)
include named nonzero

theorem revokeBody_of_noRecord (absent : s.lookRecord key = none) :
    revokeBody p key target s = s.answer .notHeld := by
  simp [revokeBody, right, named, nonzero, absent]

variable {i : RecIx} {r : Record} (found : s.lookRecord key = some (i, r))
include found

theorem revokeBody_of_noClaim (nothing : r.targeted t = []) : revokeBody p key target s = s.answer .notHeld := by
  simp [revokeBody, right, named, nonzero, found, nothing]

theorem revokeBody_of_claims (occurs : r.targeted t ≠ []) : revokeBody p key target s =
    ⟨((r.targeted t).foldl (State.revokeClaim i) s).passOrRetire i ((r.targeted t).any r.passedOnLoss), .ok,
      .removed (r.targeted t).length⟩ := by
  simp [revokeBody, right, named, nonzero, found, occurs]

end

theorem Record.mem_targeted {r : Record} {t : Target} {q : Port} :
    q ∈ r.targeted t ↔ t.includes q = true ∧ (r.holder q ≠ none ∨ r.waiter q ≠ none) := by
  simp [Record.targeted, Record.hasClaim, Option.isSome_iff_ne_none]

theorem Record.passedOnLoss_iff (r : Record) (q : Port) : r.passedOnLoss q = true ↔
    r.holder q ≠ none ∨ ∃ w, r.waiters.head? = some w ∧ w.port = q := by
  rw [Record.passedOnLoss, Bool.or_eq_true, Record.headIs_iff, Option.isSome_iff_ne_none]

theorem Record.waiter_of_mem {r : Record} {w : Waiter} (mem : w ∈ r.waiters) : r.waiter w.port ≠ none := by
  intro nothing
  exact (Record.waiter_none_iff r w.port).mp nothing w mem rfl

/-- A record that names each port once still does after removals. -/
theorem Record.onePerPort_of_removed {r left : Record} {l : List Port} (single : r.onePerPort)
    (waiters : left.waiters = r.waiters.filter fun w => decide (w.port ∉ l))
    (holders : ∀ q, left.holder q = if q ∈ l then none else r.holder q) : left.onePerPort := by
  refine ⟨?_, fun w mem => ?_⟩
  · rw [waiters]
    exact single.1.sublist (List.filter_sublist.map _)
  · rw [waiters, List.mem_filter] at mem
    rw [holders]
    split
    · rfl
    · exact single.2 w mem.1

/-- The removals and what follows them, pass or bare retirement, on a record that names each port once. -/
structure RevokePassed (s u t : State) (i : RecIx) (r : Record) (l : List Port) : Prop where
  frame : ClaimFrame s t
  record : ∀ r', t.record i = some r' → r'.key = r.key ∧
    ∀ q, (q ∈ l ∨ r.waiter q = none ∧ r.holder q = none) → r'.holder q = none ∧ r'.waiter q = none
  record_ne : ∀ j, j ≠ i → t.record j = s.record j
  settled : ∀ q, (q ∈ l ∨ r.waiter q = none) → t.port q = u.port q ∧ ∀ k, t.slot q k = u.slot q k
  slot_ne : ∀ q k, q ∉ l → (∀ w, r.waiter q = some w → w.slot ≠ k) → t.slot q k = s.slot q k
  holder : ∀ q h, q ∉ l → r.holder q = some h → ∃ r', t.record i = some r' ∧ r'.holder q = some h
  waiter : ∀ w ∈ r.waiters, w.port ∉ l → WaiterStands t i w s.now
  ended : ∀ q ch, q ∈ l → r.endsExclusive s q ch → EndReported s t r.key ch
  chan : ∀ ch, s.boundChannel r.key ≠ some ch → t.chan ch = s.chan ch

theorem ClaimsRevoked.passOrRetire {s u : State} {i : RecIx} {r : Record} {l : List Port}
    (revoked : ClaimsRevoked s u i r l) (frame : ClaimFrame s u) (single : r.onePerPort) (passed : Bool) :
    RevokePassed s u (u.passOrRetire i passed) i r l := by
  obtain ⟨left, record, key, waiters, holders⟩ := revoked.record
  have pass := u.passOrRetire_local i left passed record
  have single' := Record.onePerPort_of_removed single waiters holders
  have bound := State.boundChannel_of_cfg frame.cfg
  have unwaiting : ∀ q, (q ∈ l ∨ r.waiter q = none) → left.waiter q = none := by
    intro q gone
    rw [Record.waiter_filter waiters]
    split
    · rfl
    · exact gone.resolve_left ‹_›
  constructor
  case frame => exact frame.trans (u.passOrRetire_frame i passed)
  case record =>
    intro r' after
    obtain ⟨key', others⟩ := pass.record_eq r' after
    refine ⟨key'.trans key, fun q gone => ?_⟩
    obtain ⟨waiter', holder'⟩ := others q (unwaiting q (gone.imp_right And.left))
    refine ⟨?_, waiter'⟩
    rw [holder', holders]
    split
    · rfl
    · exact (gone.resolve_left ‹_›).2
  case record_ne => exact fun j ne => (pass.record_ne j ne).trans (revoked.record_ne j ne)
  case settled => exact fun q gone => ⟨pass.port q (unwaiting q gone), pass.slot q (unwaiting q gone)⟩
  case slot_ne =>
    intro q k stays free
    have before : u.slot q k = s.slot q k := (revoked.slot q k).trans (if_neg stays)
    have free' : ∀ w ∈ left.waiters, w.port = q → w.slot ≠ k := by
      rintro w mem rfl
      rw [waiters, List.mem_filter] at mem
      cases found : r.waiter w.port with
      | none => exact absurd found (Record.waiter_of_mem mem.1)
      | some v =>
        have same : v = w := by
          have vport := Record.waiter_port found
          have nodup := single.1
          exact List.inj_on_of_nodup_map nodup (Record.waiter_mem found) mem.1 vport
        exact same ▸ free v found
    cases passed with
    | true => exact (State.grantPass_slot_ne record free').trans before
    | false => exact ((u.retire_same i).2.1 q k).trans before
  case holder =>
    intro q h stays held
    exact State.passOrRetire_holder record single' passed (by rw [holders, if_neg stays, held])
  case waiter =>
    intro w mem stays
    have mem' : w ∈ left.waiters := by
      rw [waiters, List.mem_filter]
      exact ⟨mem, by simpa using stays⟩
    rw [← frame.now]
    exact State.passOrRetire_waiter record single' passed mem'
  case ended =>
    intro q ch mem ends
    have isBound : s.boundChannel r.key = some ch := by
      obtain ⟨h, -, -, isBound⟩ := ends
      exact isBound
    refine endReported_of_taken (revoked.ended ch ⟨q, mem, ends⟩) ?_
    cases passed with
    | true => exact State.grantPass_channelTaken u i ((bound _).trans isBound)
    | false => exact Or.inl ((u.retire_same i).2.2 ch)
  case chan =>
    intro ch unbound
    rw [pass.chan ch (by rw [bound, key]; exact unbound)]
    refine revoked.chan ch ?_
    rintro ⟨q, -, h, -, -, isBound⟩
    exact unbound isBound

/-- Settles O17: the refusals of the body in their order; then the removals by `State.revokeClaims` and what follows
them by `ClaimsRevoked.passOrRetire`. -/
theorem revokeOutcome : Obligations.RevokeOutcome := by
  unfold Obligations.RevokeOutcome
  intro s p tag key target c refused right inRange targeted taken attached
  let s' : State := { s with served := p }
  have answer : ∀ st, revokeBody p key target s' = ⟨s', st, .none⟩ → refused st := fun st body =>
    exec_of_answer (exec_revoke p key target s) taken attached body
  refine ⟨fun noRight => answer _ (revokeBody_of_noRight (s := s') noRight),
    fun hasRight bad => answer _ (revokeBody_of_badParam (s := s') hasRight bad),
    fun hasRight good absent => ?_, fun i r hasRight good found => ?_⟩
  · obtain ⟨t, named, -⟩ := exists_target good.2
    exact answer _ (revokeBody_of_noRecord (s := s') hasRight named good.1 absent)
  · obtain ⟨t, named, includes⟩ := exists_target good.2
    have mem : ∀ q, q ∈ r.targeted t ↔ targeted q ∧ (r.holder q ≠ none ∨ r.waiter q ≠ none) := fun q => by
      rw [Record.mem_targeted, includes]
    intro revoked
    refine ⟨fun nothing => ?_, fun occurs single => ?_⟩
    · refine answer _ (revokeBody_of_noClaim (s := s') hasRight named good.1 found
        (List.eq_nil_iff_forall_not_mem.mpr fun q removed => ?_))
      obtain ⟨aimed, claims⟩ := (mem q).mp removed
      obtain ⟨unheld, unwaiting⟩ := nothing q aimed
      exact claims.elim (fun h => h unheld) fun h => h unwaiting
    · obtain ⟨stands, key_eq, -⟩ := State.lookRecord_eq_some_iff.mp found
      subst key_eq
      let l := r.targeted t
      let u := l.foldl (State.revokeClaim i) s'
      let v := u.passOrRetire i (l.any r.passedOnLoss)
      have nodup : l.Nodup := (List.nodup_finRange 4).filter _
      have nonempty : l ≠ [] := by
        obtain ⟨q, claims⟩ := occurs
        exact List.ne_nil_of_mem ((mem q).mpr claims)
      have removals : ClaimsRevoked s' u i r l :=
        State.revokeClaims (s := s') stands single l nodup fun q removed => (List.mem_filter.mp removed).2 |>
          fun both => (Bool.and_eq_true_iff.mp both).2
      have frame : ClaimFrame s' u := ClaimFrame.foldl _ (State.revokeClaim_frame i) l s'
      obtain ⟨frame', record, record_ne, settled, slot_ne, holder, waiter, ended, chan⟩ :=
        removals.passOrRetire frame single (l.any r.passedOnLoss)
      have row : exec c s = .next (v.placeReply p tag c .ok (.removed l.length)) := by
        rw [exec_revoke, State.runCommand_attached taken attached,
          revokeBody_of_claims (s := s') hasRight named good.1 found nonempty]
      have aimed_cases : ∀ q, targeted q → q ∈ l ∨ r.waiter q = none ∧ r.holder q = none := by
        intro q aimed
        by_cases claims : r.holder q ≠ none ∨ r.waiter q ≠ none
        · exact Or.inl ((mem q).mpr ⟨aimed, claims⟩)
        · rw [not_or, not_not, not_not] at claims
          exact Or.inr ⟨claims.2, claims.1⟩
      refine ⟨v, l.length, row, frame', ?count, fun r' after => ?record, record_ne, fun q h aimed held => ?holder,
        fun q w aimed waiting => ?waiter, fun q unheld unwaiting => ?unnamed, fun q k notHeld notWaiting => ?slot,
        fun q h missed held => ?missed, fun w waits missed => waiter w waits fun removed =>
          missed ((mem w.port).mp removed).1, fun q h ch aimed held exclusive isBound => ?ended, chan,
        fun passed => ?pass, fun q w one aimed unheld waiting behind => ?behind⟩
      case count =>
        show ((List.finRange 4).filter _).length = _
        rw [← List.countP_eq_length_filter]
        refine List.countP_congr fun q _ => ?_
        rw [Bool.and_eq_true, Bool.and_eq_true, includes, decide_eq_true_eq]
        rfl
      case record =>
        obtain ⟨key', others⟩ := record r' after
        exact ⟨key', fun q aimed => others q (aimed_cases q aimed)⟩
      case holder =>
        have removed : q ∈ l := (mem q).mpr ⟨aimed, Or.inl (by simp [held])⟩
        obtain ⟨port, slot⟩ := settled q (Or.inl removed)
        have single' : u.port q = (s'.endHolding i r q h (some .revoked)).port q ∧
            ∀ k, u.slot q k = (s'.endHolding i r q h (some .revoked)).slot q k := by
          rw [← State.revokeClaim_of_holder (s := s') stands held]
          exact ⟨(removals.port q).trans (if_pos removed), fun k => (removals.slot q k).trans (if_pos removed)⟩
        rw [slot, single'.2, port, single'.1, State.endHolding_slot, State.endHolding_port]
        simp
        exact ⟨⟨rfl, rfl, rfl⟩, rfl⟩
      case waiter =>
        have removed : q ∈ l := (mem q).mpr ⟨aimed, Or.inr (by simp [waiting])⟩
        have wport : w.port = q := Record.waiter_port waiting
        have unheld : r.holder q = none := wport ▸ single.2 w (Record.waiter_mem waiting)
        obtain ⟨port, slot⟩ := settled q (Or.inl removed)
        have single' : u.port q = (s'.dropWaiter i r w (some .revoked)).port q ∧
            ∀ k, u.slot q k = (s'.dropWaiter i r w (some .revoked)).slot q k := by
          rw [← State.revokeClaim_of_waiter (s := s') stands unheld waiting]
          exact ⟨(removals.port q).trans (if_pos removed), fun k => (removals.slot q k).trans (if_pos removed)⟩
        rw [slot, single'.2, port, single'.1, State.dropWaiter_slot, State.dropWaiter_port, wport]
        simp
        exact ⟨⟨rfl, rfl, rfl⟩, rfl⟩
      case unnamed =>
        have stays : q ∉ l := fun removed => ((mem q).mp removed).2.elim (fun h => h unheld) fun h => h unwaiting
        obtain ⟨port, slot⟩ := settled q (Or.inr unwaiting)
        exact ⟨port.trans ((removals.port q).trans (if_neg stays)),
          fun k => (slot k).trans ((removals.slot q k).trans (if_neg stays))⟩
      case slot =>
        by_cases removed : q ∈ l
        · obtain ⟨-, slot⟩ := settled q (Or.inl removed)
          refine (slot k).trans ((removals.slot q k).trans ((if_pos removed).trans ?_))
          cases held : r.holder q with
          | some h =>
            rw [State.revokeClaim_of_holder (s := s') stands held, State.endHolding_slot, if_neg]
            · rfl
            · exact fun h' => notHeld h held h'.2.symm
          | none =>
            obtain ⟨w, waiting⟩ := Option.ne_none_iff_exists'.mp
              (((mem q).mp removed).2.resolve_left fun h => h held)
            rw [State.revokeClaim_of_waiter (s := s') stands held waiting, State.dropWaiter_slot, if_neg]
            · rfl
            · exact fun h' => notWaiting w waiting h'.2.symm
        · exact slot_ne q k removed notWaiting
      case missed =>
        have stays : q ∉ l := fun removed => missed ((mem q).mp removed).1
        have unwaiting : r.waiter q = none := by
          cases waiting : r.waiter q with
          | none => rfl
          | some w =>
            have unheld := single.2 w (Record.waiter_mem waiting)
            rw [Record.waiter_port waiting, held] at unheld
            cases unheld
        exact ⟨(settled q (Or.inr unwaiting)).1.trans ((removals.port q).trans (if_neg stays)),
          holder q h stays held⟩
      case ended =>
        exact ended q ch ((mem q).mpr ⟨aimed, Or.inl (by simp [held])⟩) ⟨h, held, exclusive, isBound⟩
      case pass =>
        have passes : l.any r.passedOnLoss = true := by
          obtain ⟨q, aimed, lost⟩ := passed
          refine List.any_eq_true.mpr ⟨q, (mem q).mpr ⟨aimed, lost.imp_right ?_⟩, (r.passedOnLoss_iff q).mpr lost⟩
          rintro ⟨w, head, rfl⟩
          exact Record.waiter_of_mem (List.mem_of_mem_head? head)
        have pass : v = u.grantPass i := by
          show u.passOrRetire i (l.any r.passedOnLoss) = _
          rw [passes]
          rfl
        obtain ⟨left, record', key', waiters, holders⟩ := removals.record
        have only : u = { s with
            served := p, table := u.table, slots := u.slots, ports := u.ports, chans := u.chans } := removals.only
        refine ⟨by rw [pass]; exact State.grantPass_passDone u i, u, left, pass, only, record', key', ?_, fun q => ?_,
          removals.record_ne, fun q => ?_, fun q k => ?_, fun ch => ?_⟩
        · rw [waiters]
          refine List.filter_congr fun w waits => ?_
          rw [Bool.eq_iff_iff, decide_eq_true_eq, mem, Bool.not_eq_true', decide_eq_false_iff_not]
          exact not_congr (and_iff_left (Or.inr (Record.waiter_of_mem waits)))
        · rw [holders]
          by_cases removed : q ∈ l
          · rw [if_pos removed, if_pos ((mem q).mp removed).1]
          · rw [if_neg removed]
            split
            · exact ((aimed_cases q ‹_›).resolve_left removed).2
            · rfl
        · split
          · rename_i removed; exact (settled q (Or.inl ((mem q).mpr removed))).1.symm
          · rename_i stays; exact (removals.port q).trans (if_neg (mt (mem q).mp stays))
        · split
          · rename_i removed; exact ((settled q (Or.inl ((mem q).mpr removed))).2 k).symm
          · rename_i stays; exact (removals.slot q k).trans (if_neg (mt (mem q).mp stays))
        · split
          · rename_i ends
            obtain ⟨q, aimed, h, held, ends⟩ := ends
            refine removals.ended ch ⟨q, (mem q).mpr ⟨aimed, Or.inl ?_⟩, h, held, ends⟩
            rw [Option.mem_def] at held
            simp [held]
          · rename_i stays
            refine removals.chan ch ?_
            rintro ⟨q, removed, h, held, ends⟩
            exact stays ⟨q, ((mem q).mp removed).1, h, held, ends⟩
      case behind =>
        have only_q : ∀ x, x ∈ l ↔ x = q := by
          intro x
          rw [mem]
          constructor
          · rintro ⟨aimed', -⟩
            exact Fin.ext ((aimed'.resolve_left one).symm.trans (aimed.resolve_left one))
          · rintro rfl
            exact ⟨aimed, Or.inr (by simp [waiting])⟩
        have stops : l.any r.passedOnLoss = false := by
          rw [Bool.eq_false_iff, Ne, List.any_eq_true]
          rintro ⟨x, removed, lost⟩
          rw [(only_q x).mp removed, Record.passedOnLoss_iff] at lost
          rcases lost with held | ⟨v, head, port⟩
          · exact held unheld
          · exact behind v head port
        have retire : v = u.retire i := by
          show u.passOrRetire i (l.any r.passedOnLoss) = _
          rw [stops]
          rfl
        obtain ⟨left, record', key', waiters, holders⟩ := removals.record
        have left_eq : left = { r with waiters := r.waiters.filter fun v => v.port != q } := by
          refine Record.ext_holder key' (fun x => ?_) ?_
          · rw [holders]
            split
            · rename_i removed; rw [(only_q x).mp removed]; exact unheld.symm
            · rfl
          · rw [waiters]
            refine List.filter_congr fun v _ => ?_
            rw [Bool.eq_iff_iff, decide_eq_true_eq, only_q]
            simp
        have kept : v = u := by
          rw [retire]
          refine State.retire_of_nonempty fun x same => ?_
          cases record'.symm.trans same
          rw [Bool.eq_false_iff, Ne, Record.isEmpty_iff]
          rintro ⟨-, nothing⟩
          rw [waiters] at nothing
          cases waits : r.waiters with
          | nil => rw [Record.waiter, waits] at waiting; cases waiting
          | cons x rest =>
            have gone := List.filter_eq_nil_iff.mp nothing x (by rw [waits]; simp)
            rw [decide_eq_true_eq, only_q] at gone
            exact gone (behind x (by rw [waits]; rfl))
        rw [kept]
        have fields : u.tok = s.tok ∧ u.store = s.store ∧ u.faultSweep = s.faultSweep := by
          rw [removals.only]
          exact ⟨rfl, rfl, rfl⟩
        refine ⟨by rw [record', left_eq], fields.1, fields.2.1, fields.2.2, State.chans_ext fun ch => ?_,
          fun x ne => ?_, fun x k other => ?_⟩
        · refine removals.chan ch ?_
          rintro ⟨x, removed, h, held, -⟩
          rw [(only_q x).mp removed, unheld] at held
          cases held
        · exact (removals.port x).trans (if_neg (mt (only_q x).mp ne))
        · refine (removals.slot x k).trans ?_
          split
          · rename_i removed
            have same := (only_q x).mp removed
            subst same
            rw [State.revokeClaim_of_waiter (s := s') stands unheld waiting, State.dropWaiter_slot, if_neg]
            · rfl
            · rintro ⟨-, slot⟩
              exact other.elim (fun h => h rfl) fun h => h slot
          · rfl

end Sys2Proof.Machine
end

section
/-! Teardown (R94 to R96): the removals as two folds over the table, each index once, and the passes behind them,
each of which reaches its own index. -/

namespace Sys2Proof.Machine

/-! ### The removals -/

theorem Record.setHolder_none_of_none {r : Record} {p : Port} (unheld : r.holder p = none) :
    r.setHolder p none = r := by
  refine Record.ext_holder rfl (fun q => ?_) rfl
  rw [Record.holder_setHolder]
  split
  · rename_i same; rw [same, unheld]
  · rfl

theorem State.tearHolding_of_holder {s : State} {p : Port} {i : RecIx} {r : Record} {h : Holding}
    (stands : s.record i = some r) (held : r.holder p = some h) :
    State.tearHolding p s i = (s.setRecord i (some (r.setHolder p none))).reportEnd r.key h.mode := by
  simp only [State.tearHolding, stands, held]

theorem State.tearHolding_of_unheld {s : State} {p : Port} {i : RecIx}
    (unheld : ∀ r, s.record i = some r → r.holder p = none) : State.tearHolding p s i = s := by
  unfold State.tearHolding
  split
  · rfl
  · rename_i r stands
    rw [unheld r stands]

/-- The record of an index has an EXCLUSIVE holding of the port, on a key bound to the channel. -/
def State.tearsExclusive (s : State) (p : Port) (i : RecIx) (ch : Channel) : Prop :=
  ∃ r ∈ s.record i, r.endsExclusive s p ch

/-- The state after the holdings of a port have left some indices (R94, step 1). -/
structure HoldingsTorn (s t : State) (p : Port) (l : List RecIx) : Prop where
  only : t = { s with table := t.table, chans := t.chans }
  record : ∀ j, t.record j = if j ∈ l then (s.record j).map fun r => r.setHolder p none else s.record j
  ended : ∀ ch, (∃ i ∈ l, s.tearsExclusive p i ch) → t.chan ch = (s.chan ch).ended s.now
  chan : ∀ ch, (¬∃ i ∈ l, s.tearsExclusive p i ch) → t.chan ch = s.chan ch

theorem HoldingsTorn.snoc {s t : State} {p : Port} {l : List RecIx} {i : RecIx} (before : HoldingsTorn s t p l)
    (fresh : i ∉ l) : HoldingsTorn s (State.tearHolding p t i) p (l ++ [i]) := by
  have same : t.record i = s.record i := (before.record i).trans (if_neg fresh)
  have cfg : t.cfg = s.cfg := by rw [before.only]
  have now : t.now = s.now := by rw [before.only]
  have bound := State.boundChannel_of_cfg cfg
  have member : ∀ j, j ∈ l ++ [i] ↔ j ∈ l ∨ j = i := by simp
  by_cases held : ∃ r h, s.record i = some r ∧ r.holder p = some h
  · obtain ⟨r, h, stands, held⟩ := held
    rw [State.tearHolding_of_holder (same.trans stands) held]
    have ends : ∀ ch, s.tearsExclusive p i ch ↔ h.mode = .exclusive ∧ s.boundChannel r.key = some ch := by
      intro ch
      constructor
      · rintro ⟨r', stands', h', held', ends⟩
        cases stands.symm.trans stands'
        cases held.symm.trans held'
        exact ends
      · exact fun ends => ⟨r, stands, h, held, ends⟩
    have chan := State.reportEnd_chan (t.setRecord i (some (r.setHolder p none))) r.key h.mode
    refine ⟨?only, fun j => ?record, fun ch occurs => ?ended, fun ch nothing => ?chan⟩
    case only =>
      obtain ⟨chans, report⟩ := State.reportEnd_eq (t.setRecord i (some (r.setHolder p none))) r.key h.mode
      rw [report, State.setRecord, before.only]
    case record =>
      rw [State.reportEnd_record, State.record_setRecord, before.record]
      by_cases here : j = i
      · subst here; simp [stands]
      · simp [here]
    case ended =>
      rw [chan]
      by_cases mine : s.tearsExclusive p i ch
      · obtain ⟨exclusive, isBound⟩ := (ends ch).mp mine
        rw [if_pos ⟨exclusive, (bound _).trans isBound⟩, GateChannel.endReport_eq_ended]
        show (t.chan ch).ended t.now = _
        rw [now]
        by_cases earlier : ∃ j ∈ l, s.tearsExclusive p j ch
        · rw [before.ended ch earlier, GateChannel.ended_ended]
        · rw [before.chan ch earlier]
      · obtain ⟨j, mem, theirs⟩ := occurs
        rcases (member j).mp mem with mem | rfl
        · rw [if_neg]
          · exact before.ended ch ⟨j, mem, theirs⟩
          · exact fun both => mine ((ends ch).mpr ⟨both.1, (bound _).symm.trans both.2⟩)
        · exact absurd theirs mine
    case chan =>
      rw [chan, if_neg]
      · exact before.chan ch fun ⟨j, mem, theirs⟩ => nothing ⟨j, List.mem_append_left _ mem, theirs⟩
      · exact fun both => nothing ⟨i, by simp, (ends ch).mpr ⟨both.1, (bound _).symm.trans both.2⟩⟩
  · have unheld : ∀ r, s.record i = some r → r.holder p = none := fun r stands =>
      Option.eq_none_iff_forall_ne_some.mpr fun h found => held ⟨r, h, stands, found⟩
    rw [State.tearHolding_of_unheld fun r stands => unheld r (same.symm.trans stands)]
    have nothing : ∀ ch, ¬s.tearsExclusive p i ch := by
      rintro ch ⟨r, stands, h, found, -⟩
      exact held ⟨r, h, stands, found⟩
    have members : ∀ ch, (∃ j ∈ l ++ [i], s.tearsExclusive p j ch) ↔ ∃ j ∈ l, s.tearsExclusive p j ch := by
      intro ch
      constructor
      · rintro ⟨j, mem, theirs⟩
        rcases (member j).mp mem with mem | rfl
        · exact ⟨j, mem, theirs⟩
        · exact absurd theirs (nothing ch)
      · rintro ⟨j, mem, theirs⟩
        exact ⟨j, List.mem_append_left _ mem, theirs⟩
    refine ⟨before.only, fun j => ?_, fun ch => ?_, fun ch => ?_⟩
    · rw [before.record]
      by_cases here : j = i
      · subst here
        rw [if_neg fresh, if_pos (by simp)]
        cases stands : s.record j with
        | none => rfl
        | some r => rw [Option.map_some, Record.setHolder_none_of_none (unheld r stands)]
      · simp [here]
    · rw [members]; exact before.ended ch
    · rw [members]; exact before.chan ch

theorem State.tearHoldings (s : State) (p : Port) (l : List RecIx) (nodup : l.Nodup) :
    HoldingsTorn s (l.foldl (State.tearHolding p) s) p l := by
  induction l using List.reverseRecOn with
  | nil =>
    refine ⟨rfl, fun j => by simp, fun ch occurs => ?_, fun _ _ => rfl⟩
    obtain ⟨j, mem, -⟩ := occurs
    cases mem
  | append_singleton l i ih =>
    rw [List.nodup_append] at nodup
    obtain ⟨front, -, apart⟩ := nodup
    rw [List.foldl_append]
    exact (ih front).snoc fun mem => apart i mem i (by simp) rfl

/-- The entries of a port leave some indices (R94, step 2). -/
theorem State.tearWaiters (s : State) (p : Port) (l : List RecIx) (nodup : l.Nodup) :
    ∃ table, l.foldl (State.tearWaiter p) s = { s with table := table } ∧
      ∀ j, (l.foldl (State.tearWaiter p) s).record j =
        if j ∈ l then (s.record j).map fun r => r.dropWaiter p else s.record j := by
  induction l using List.reverseRecOn with
  | nil => exact ⟨s.table, rfl, fun j => by simp⟩
  | append_singleton l i ih =>
    rw [List.nodup_append] at nodup
    obtain ⟨front, -, apart⟩ := nodup
    obtain ⟨table, same, record⟩ := ih front
    have fresh : i ∉ l := fun mem => apart i mem i (by simp) rfl
    have here : (l.foldl (State.tearWaiter p) s).record i = s.record i := (record i).trans (if_neg fresh)
    rw [List.foldl_append, List.foldl_cons, List.foldl_nil]
    cases stands : s.record i with
    | none =>
      rw [State.tearWaiter, here, stands]
      refine ⟨table, same, fun j => ?_⟩
      rw [record]
      by_cases there : j = i
      · subst there; simp [stands]
      · simp [there]
    | some r =>
      rw [State.tearWaiter, here, stands]
      refine ⟨_, by rw [same]; rfl, fun j => ?_⟩
      rw [State.record_setRecord, record]
      by_cases there : j = i
      · subst there; simp [stands]
      · simp [there]

/-- A record without a port's claims. -/
def Record.without (r : Record) (p : Port) : Record := (r.setHolder p none).dropWaiter p

theorem Record.holder_without (r : Record) (p q : Port) :
    (r.without p).holder q = if q = p then none else r.holder q := Record.holder_setHolder r p q none

theorem Record.waiter_without (r : Record) (p q : Port) :
    (r.without p).waiter q = if q = p then none else r.waiter q :=
  Record.waiter_dropWaiter (r.setHolder p none) p q

theorem Record.waiters_without (r : Record) (p : Port) :
    (r.without p).waiters = r.waiters.filter fun w => w.port != p := rfl

theorem Record.without_onePerPort {r : Record} (single : r.onePerPort) (p : Port) : (r.without p).onePerPort := by
  refine ⟨single.1.sublist (List.filter_sublist.map _), fun w mem => ?_⟩
  rw [Record.waiters_without, List.mem_filter] at mem
  rw [Record.holder_without]
  split
  · rfl
  · exact single.2 w mem.1

/-- The state after the five steps of a teardown (R94, R96). -/
structure StepsTorn (s u : State) (p : Port) : Prop where
  only : u = { s with
    cfg := s.cfg.tearStaging p, table := u.table, slots := u.slots, ports := u.ports, chans := u.chans }
  record : ∀ i, u.record i = (s.record i).map fun r => r.without p
  port : ∀ q, u.port q = if q = p then { s.port p with notices := [] } else s.port q
  slot : ∀ q k, u.slot q k = if q = p then .free else s.slot q k
  ended : ∀ ch, (∃ i, s.tearsExclusive p i ch) → u.chan ch = (s.chan ch).ended s.now
  chan : ∀ ch, (¬∃ i, s.tearsExclusive p i ch) → u.chan ch = s.chan ch

/-- Steps 3 to 5 of a teardown: the queue, the slots, the open image. -/
def State.clearPort (s : State) (p : Port) : State :=
  let t := (s.modPort p fun u => { u with notices := [] }).freeSlots p
  { t with cfg := t.cfg.tearStaging p }

theorem State.tearDownSteps_eq (s : State) (p : Port) : s.tearDownSteps p =
    ((List.finRange 24).foldl (State.tearWaiter p) ((List.finRange 24).foldl (State.tearHolding p) s)).clearPort p :=
  rfl

theorem State.clearPort_only (s : State) (p : Port) : s.clearPort p = { s with
    cfg := s.cfg.tearStaging p, slots := (s.clearPort p).slots, ports := (s.clearPort p).ports } := rfl

theorem State.clearPort_port (s : State) (p q : Port) :
    (s.clearPort p).port q = if q = p then { s.port p with notices := [] } else s.port q :=
  State.port_modPort s p q fun u => { u with notices := [] }

theorem State.clearPort_slot (s : State) (p q : Port) (k : SlotIx) :
    (s.clearPort p).slot q k = if q = p then .free else s.slot q k :=
  State.slot_freeSlots (s.modPort p fun u => { u with notices := [] }) p q k

theorem State.tearDownSteps_torn (s : State) (p : Port) : StepsTorn s (s.tearDownSteps p) p := by
  obtain ⟨only, record, ended, chan⟩ := s.tearHoldings p (List.finRange 24) (List.nodup_finRange 24)
  rw [State.tearDownSteps_eq]
  generalize (List.finRange 24).foldl (State.tearHolding p) s = s1 at only record ended chan ⊢
  obtain ⟨table, same, record'⟩ := s1.tearWaiters p (List.finRange 24) (List.nodup_finRange 24)
  generalize (List.finRange 24).foldl (State.tearWaiter p) s1 = s2 at same record' ⊢
  have ports : ∀ q, s2.port q = s.port q := fun q => by rw [same, only]; rfl
  have slots : ∀ q k, s2.slot q k = s.slot q k := fun q k => by rw [same, only]; rfl
  have chans : ∀ ch, (s2.clearPort p).chan ch = s1.chan ch := fun ch => by rw [same]; rfl
  constructor
  case only => rw [State.clearPort_only, same, only]
  case record =>
    intro i
    refine (record' i).trans ?_
    rw [if_pos (List.mem_finRange i), record, if_pos (List.mem_finRange i), Option.map_map]
    rfl
  case port => exact fun q => by rw [State.clearPort_port, ports, ports]
  case slot => exact fun q k => by rw [State.clearPort_slot, slots]
  case ended => exact fun ch ⟨i, ends⟩ => (chans ch).trans (ended ch ⟨i, List.mem_finRange i, ends⟩)
  case chan => exact fun ch nothing => (chans ch).trans (chan ch fun ⟨i, _, ends⟩ => nothing ⟨i, ends⟩)

@[simp] theorem ConfigUnit.tearStaging_effective (c : ConfigUnit) (p : Port) :
    (c.tearStaging p).effective = c.effective := by
  unfold ConfigUnit.tearStaging
  split <;> rfl

theorem State.tearDownSteps_frame (s : State) (p : Port) :
    ClaimFrame { s with cfg := s.cfg.tearStaging p } (s.tearDownSteps p) := by
  have holdings := ClaimFrame.foldl _ (State.tearHolding_frame p) (List.finRange 24) s
  have waiters := holdings.trans (ClaimFrame.foldl _ (State.tearWaiter_frame p) (List.finRange 24) _)
  exact ((waiters.trans (State.emptyQueue_frame _ p)).trans (State.freeSlots_frame _ p)).tearStaging p

/-! ### The passes -/

/-- Passes and retirements, one after another. -/
def State.passes (passed : RecIx → Bool) (l : List RecIx) (s : State) : State :=
  l.foldl (fun v i => v.passOrRetire i (passed i)) s

/-- A teardown is its five steps and the passes of the records that lost a holding or their head (R95). -/
theorem State.tearDown_eq_passes (s : State) (p : Port) : s.tearDown p =
    (s.tearDownSteps p).passes (fun i => (s.record i).any fun r => r.passedOnLoss p) (List.finRange 24) := rfl

section
variable {passed : RecIx → Bool} {s : State}

theorem State.passes_cons (i : RecIx) (l : List RecIx) :
    s.passes passed (i :: l) = (s.passOrRetire i (passed i)).passes passed l := rfl

theorem State.passes_append (l m : List RecIx) : s.passes passed (l ++ m) = (s.passes passed l).passes passed m :=
  List.foldl_append

theorem State.passes_frame (l : List RecIx) : ClaimFrame s (s.passes passed l) :=
  ClaimFrame.foldl _ (fun s i => s.passOrRetire_frame i (passed i)) l s

theorem State.passes_record_of_notMem {l : List RecIx} {i : RecIx} (other : i ∉ l) :
    (s.passes passed l).record i = s.record i := by
  induction l generalizing s with
  | nil => rfl
  | cons j l ih =>
    rw [List.mem_cons, not_or] at other
    rw [State.passes_cons, ih other.2, State.passOrRetire_record_ne s j i (passed j) other.1]

theorem State.passOrRetire_noWider (i : RecIx) (b : Bool) : NoWider s (s.passOrRetire i b) := by
  cases b with
  | true => exact s.grantPass_noWider i
  | false => exact s.retire_noWider i

theorem State.passes_noWider (l : List RecIx) : NoWider s (s.passes passed l) := by
  induction l generalizing s with
  | nil => exact NoWider.refl s
  | cons j l ih => exact (State.passOrRetire_noWider j (passed j)).trans ih

/-- What the passes leave at an index is what its own pass leaves there. -/
theorem State.passes_at {l : List RecIx} (nodup : l.Nodup) {i : RecIx} (mem : i ∈ l) :
    ∃ v, ClaimFrame s v ∧ v.record i = s.record i ∧
      (s.passes passed l).record i = (v.passOrRetire i (passed i)).record i ∧
      NoWider (v.passOrRetire i (passed i)) (s.passes passed l) := by
  obtain ⟨front, rest, rfl⟩ := List.append_of_mem mem
  rw [List.nodup_append] at nodup
  obtain ⟨-, later, apart⟩ := nodup
  rw [List.nodup_cons] at later
  refine ⟨s.passes passed front, State.passes_frame front,
    State.passes_record_of_notMem fun earlier => apart i earlier i (by simp) rfl, ?_, ?_⟩
  · rw [State.passes_append, State.passes_cons, State.passes_record_of_notMem later.1]
  · rw [State.passes_append, State.passes_cons]
    exact State.passes_noWider rest

/-- No record names the port. -/
def State.unnamed (s : State) (p : Port) : Prop :=
  ∀ i r, s.record i = some r → r.holder p = none ∧ r.waiter p = none

theorem State.passOrRetire_of_none {i : RecIx} (nothing : s.record i = none) (b : Bool) : s.passOrRetire i b = s := by
  cases b with
  | true => exact s.grantPass_none i nothing
  | false => exact State.retire_of_nonempty fun r found => by rw [nothing] at found; cases found

/-- A port that no record names is left alone. -/
theorem State.passOrRetire_unnamed {p : Port} (unnamed : s.unnamed p) (i : RecIx) (b : Bool) :
    (s.passOrRetire i b).unnamed p ∧ (s.passOrRetire i b).port p = s.port p ∧
      ∀ k, (s.passOrRetire i b).slot p k = s.slot p k := by
  cases stands : s.record i with
  | none => rw [State.passOrRetire_of_none stands]; exact ⟨unnamed, rfl, fun _ => rfl⟩
  | some r =>
    have pass := s.passOrRetire_local i r b stands
    obtain ⟨unheld, unwaiting⟩ := unnamed i r stands
    refine ⟨fun j r' stands' => ?_, pass.port p unwaiting, pass.slot p unwaiting⟩
    by_cases here : j = i
    · subst here
      obtain ⟨waiter, holder⟩ := (pass.record_eq r' stands').2 p unwaiting
      exact ⟨holder.trans unheld, waiter⟩
    · exact unnamed j r' ((pass.record_ne j here).symm.trans stands')

theorem State.passes_unnamed {p : Port} (unnamed : s.unnamed p) (l : List RecIx) :
    (s.passes passed l).unnamed p ∧ (s.passes passed l).port p = s.port p ∧
      ∀ k, (s.passes passed l).slot p k = s.slot p k := by
  induction l generalizing s with
  | nil => exact ⟨unnamed, rfl, fun _ => rfl⟩
  | cons i l ih =>
    obtain ⟨unnamed', port, slot⟩ := State.passOrRetire_unnamed unnamed i (passed i)
    obtain ⟨unnamed'', port', slot'⟩ := ih unnamed'
    exact ⟨unnamed'', port'.trans port, fun k => (slot' k).trans (slot k)⟩

theorem ChannelTaken.trans {s t u : State} {key : Word} {ch : Channel} (first : ChannelTaken s t key ch)
    (second : ChannelTaken t u key ch) (held : t.heldExclusive key → u.heldExclusive key) :
    ChannelTaken s u key ch := by
  rcases first with same | ⟨idle, heldNow, taken⟩
  · unfold ChannelTaken at second
    rwa [same] at second
  · rcases second with same | ⟨idle', -, -⟩
    · exact Or.inr ⟨idle, held heldNow, same.trans taken⟩
    · exact absurd idle' (State.chan_ne_idle_of_taken taken)

theorem State.passOrRetire_channelTaken (i : RecIx) (b : Bool) {key : Word} {ch : Channel}
    (bound : s.boundChannel key = some ch) : ChannelTaken s (s.passOrRetire i b) key ch := by
  cases b with
  | true => exact s.grantPass_channelTaken i bound
  | false => exact Or.inl ((s.retire_same i).2.2 ch)

theorem State.heldExclusive_passOrRetire (i : RecIx) (b : Bool) {key : Word} (held : s.heldExclusive key) :
    (s.passOrRetire i b).heldExclusive key := by
  cases b with
  | true => exact State.heldExclusive_grantPass i held
  | false =>
    cases stands : s.record i with
    | none => rw [State.passOrRetire_of_none stands]; exact held
    | some r =>
      show (s.retire i).heldExclusive key
      rw [State.retire_eq s i stands]
      split
      · rename_i empty; exact State.heldExclusive_retired stands empty held
      · exact held

theorem State.passes_channelTaken {key : Word} {ch : Channel} (bound : s.boundChannel key = some ch)
    (l : List RecIx) : ChannelTaken s (s.passes passed l) key ch ∧
      (s.heldExclusive key → (s.passes passed l).heldExclusive key) := by
  induction l generalizing s with
  | nil => exact ⟨Or.inl rfl, id⟩
  | cons i l ih =>
    have bound' := (State.boundChannel_of_cfg (s.passOrRetire_frame i (passed i)).cfg key).trans bound
    obtain ⟨taken, held⟩ := ih bound'
    exact ⟨(State.passOrRetire_channelTaken i (passed i) bound).trans taken held,
      fun before => held (State.heldExclusive_passOrRetire i (passed i) before)⟩

end

/-- A pass that is done stays done while admission grows no wider. -/
theorem State.passDone_of_noWider {s t : State} {i : RecIx} (done : s.passDone i) (record : t.record i = s.record i)
    (narrower : NoWider s t) : t.passDone i := by
  intro r stands
  obtain ⟨nonempty, head⟩ := done r (record.symm.trans stands)
  refine ⟨nonempty, fun w rest waits => ?_⟩
  obtain ⟨blocked, reserved⟩ := head w rest waits
  refine ⟨?_, reserved⟩
  rw [Bool.eq_false_iff] at blocked ⊢
  exact fun admissible => blocked (narrower r w.mode admissible)

/-! ### The teardown -/

theorem State.tearDownSteps_unnamed (s : State) (p : Port) : (s.tearDownSteps p).unnamed p := by
  intro i r stands
  rw [(s.tearDownSteps_torn p).record, Option.map_eq_some_iff] at stands
  obtain ⟨r', -, rfl⟩ := stands
  exact ⟨by rw [Record.holder_without, if_pos rfl], by rw [Record.waiter_without, if_pos rfl]⟩

/-- Teardown leaves the port no claim, no slot that is not FREE and no notice. -/
theorem State.tearDown_clears (s : State) (p : Port) : (s.tearDown p).unnamed p ∧
    (s.tearDown p).port p = { s.port p with notices := [] } ∧ ∀ k, (s.tearDown p).slot p k = .free := by
  have torn := s.tearDownSteps_torn p
  obtain ⟨unnamed, port, slot⟩ := State.passes_unnamed
    (passed := fun i => (s.record i).any fun r => r.passedOnLoss p) (s.tearDownSteps_unnamed p) (List.finRange 24)
  exact ⟨unnamed, port.trans ((torn.port p).trans (if_pos rfl)),
    fun k => (slot k).trans ((torn.slot p k).trans (if_pos rfl))⟩

/-- What a teardown leaves at the index of a record: what follows its removals from there. -/
theorem State.tearDown_at {s : State} {p : Port} {i : RecIx} {r : Record} (stands : s.record i = some r) :
    ∃ v : State, v.now = s.now ∧ v.record i = some (r.without p) ∧
      (s.tearDown p).record i = (v.passOrRetire i (r.passedOnLoss p)).record i ∧
      NoWider (v.passOrRetire i (r.passedOnLoss p)) (s.tearDown p) := by
  have torn := s.tearDownSteps_torn p
  have frame := s.tearDownSteps_frame p
  obtain ⟨v, frame', record, after, narrower⟩ := State.passes_at (s := s.tearDownSteps p)
    (passed := fun i => (s.record i).any fun r => r.passedOnLoss p) (List.nodup_finRange 24) (List.mem_finRange i)
  have passed : ((s.record i).any fun r => r.passedOnLoss p) = r.passedOnLoss p := by rw [stands]; rfl
  rw [passed] at after narrower
  exact ⟨v, frame'.now.trans frame.now, record.trans (by rw [torn.record, stands]; rfl), after, narrower⟩

/-- Settles O9: the five steps by `State.tearDownSteps_torn`, the passes by `State.passes_at`. -/
theorem tearDownRemovesClaims : Obligations.TearDownRemovesClaims := by
  unfold Obligations.TearDownRemovesClaims
  intro s p t
  have torn := s.tearDownSteps_torn p
  obtain ⟨unnamed, port, slot⟩ := s.tearDown_clears p
  have cfg : t.cfg = s.cfg.tearStaging p := (s.tearDown_frame p).cfg
  refine ⟨unnamed, slot, by rw [port], cfg, fun i nothing => ?none, fun i r stands => ?record,
    fun i r stands single => ?others, fun i r h ch stands held exclusive bound => ?ended, ?steps, ?frame⟩
  case none =>
    have gone : (s.tearDownSteps p).record i = none := by rw [torn.record, nothing]; rfl
    obtain ⟨v, -, record, after, -⟩ := State.passes_at (s := s.tearDownSteps p)
      (passed := fun i => (s.record i).any fun r => r.passedOnLoss p) (List.nodup_finRange 24) (List.mem_finRange i)
    rw [State.passOrRetire_of_none (record.trans gone)] at after
    exact after.trans (record.trans gone)
  case record =>
    obtain ⟨v, -, record, after, narrower⟩ := State.tearDown_at (p := p) stands
    have passed : r.passedOnLoss p = true ↔
        (r.holder p).isSome = true ∨ ∃ w, r.waiters.head? = some w ∧ w.port = p := by
      rw [Record.passedOnLoss_iff, Option.isSome_iff_ne_none]
    dsimp only
    split
    · rename_i lost
      rw [passed.mpr lost] at after narrower
      exact State.passDone_of_noWider (v.grantPass_passDone i) after narrower
    · rename_i kept
      rw [Bool.eq_false_iff.mpr (mt passed.mp kept)] at after
      rw [show (s.tearDown p).record i = _ from after]
      show (v.retire i).record i = _
      rw [State.retire_eq v i record]
      show _ = if (r.without p).isEmpty then none else some (r.without p)
      split
      · rw [State.record_setRecord, if_pos rfl]
      · exact record
  case others =>
    obtain ⟨v, now, record, after, -⟩ := State.tearDown_at (p := p) stands
    have single' := Record.without_onePerPort single p
    refine ⟨fun q h other held => ?_, fun w mem other => ?_⟩
    · rw [show t.record i = _ from after]
      exact State.passOrRetire_holder record single' _ (by rw [Record.holder_without, if_neg other, held])
    · obtain ⟨r', stands', either⟩ := State.passOrRetire_waiter record single' (r.passedOnLoss p)
        (w := w) (by rw [Record.waiters_without, List.mem_filter]; exact ⟨mem, by simpa using other⟩)
      exact ⟨r', after.trans stands', now ▸ either⟩
  case ended =>
    have bound' : (s.tearDownSteps p).boundChannel r.key = some ch := by
      rw [← bound, torn.only]
      simp [State.boundChannel]
    exact endReported_of_taken (torn.ended ch ⟨i, r, stands, h, held, exclusive, bound⟩)
      (State.passes_channelTaken bound' (List.finRange 24)).1
  case steps =>
    refine ⟨s.tearDownSteps p, ?_, torn.record, fun k => (torn.slot p k).trans (if_pos rfl),
      (torn.port p).trans (if_pos rfl), fun q other => ⟨(torn.port q).trans (if_neg other),
        fun k => (torn.slot q k).trans (if_neg other)⟩, fun ch => ?_, rfl⟩
    · rw [cfg]; exact torn.only
    · split
      · rename_i ends
        obtain ⟨i, r, stands, h, held, ends⟩ := ends
        exact torn.ended ch ⟨i, r, stands, h, held, ends⟩
      · rename_i stays
        refine torn.chan ch ?_
        rintro ⟨i, r, stands, h, held, ends⟩
        exact stays ⟨i, r, stands, h, held, ends⟩
  case frame =>
    rw [cfg]
    exact s.tearDown_frame p

end Sys2Proof.Machine
end

section
/-! What a row can do, said once: its work, a chain of indivisible changes of the claim engine, of the store
and the configuration unit, and of the link; or the boundary of a boot, a device reset, the start of BOOT or its
end; or a tick. Every invariant of a run is one case for each of these. -/

namespace Sys2Proof.Machine

/-! ### The indivisible changes -/

/-- Where an ACQUIRE that has passed its checks may be placed (R8, R10, R20). -/
structure Place.Fits (s : State) (p : Port) (pl : Place) : Prop where
  attached : (s.port p).attached = true
  key : pl.record.key ≠ 0#32
  stands : s.record pl.index = some pl.record ∨
    s.record pl.index = none ∧ pl.record = Record.fresh pl.record.key ∧
      ∀ j r, s.record j = some r → r.key ≠ pl.record.key
  unheld : pl.record.holder p = none
  unwaiting : pl.record.waiter p = none
  slot : s.slot p pl.slot = .free

/-- A lease that a port may ask for (R36). -/
def State.leaseFits (s : State) (p : Port) (lease : Half) : Prop :=
  10#16 ≤ lease ∧ lease ≤ (s.settings p).maxLease

/-- A change of the claim engine in READY. The two sets are the indices at which, before and behind it, a record
may stand without an entry: a removal adds its index, and a retirement takes it out. -/
inductive ClaimMove : Set RecIx → Set RecIx → State → State → Prop
  | grantHead {D s i r w rest} (stands : s.record i = some r) (waits : r.waiters = w :: rest)
      (admissible : s.admissible r w.mode = true) : ClaimMove D D s (s.grantHead i r w rest)
  | markReserved {D s i r w rest} (stands : s.record i = some r) (waits : r.waiters = w :: rest)
      (blocked : s.admissible r w.mode = false) : ClaimMove D D s (s.markReserved i r w rest)
  | retire {D s} (i : RecIx) : ClaimMove D (D \ {i}) s (s.retire i)
  | endHolding {D s i r p h} (cause : Option NoticeKind) (stands : s.record i = some r)
      (held : r.holder p = some h) : ClaimMove D (insert i D) s (s.endHolding i r p h cause)
  | dropWaiter {D s i r w} (cause : Option Reason) (stands : s.record i = some r)
      (waiting : r.waiter w.port = some w) : ClaimMove D (insert i D) s (s.dropWaiter i r w cause)
  | grantAtOnce {D s p pl mode lease} (fits : pl.Fits s p) (noWaiters : pl.record.waiters = [])
      (admissible : s.admissible pl.record mode = true) (leaseFits : s.leaseFits p lease) :
      ClaimMove D D s (s.grantAtOnce p pl mode lease).st
  | enqueue {D s p pl mode lease wait} (fits : pl.Fits s p) (leaseFits : s.leaseFits p lease) (waits : wait ≠ 0#16)
      (waitFits : wait ≤ (s.settings p).maxWait) : ClaimMove D D s (s.enqueue p pl mode lease wait).st
  | noteDemand {D s} : ClaimMove D D s s.noteDemand
  | moveLease {D s i r p h lease} (stands : s.record i = some r) (held : r.holder p = some h)
      (leaseFits : s.leaseFits p lease) : ClaimMove D D s (s.moveLease i r p h (s.now + lease.setWidth 32))
  | acknowledge {D s p n rest} (oldest : (s.port p).notices = n :: rest) : ClaimMove D D s (s.acknowledge p n rest)
  | tearDown {D s} (p : Port) : ClaimMove D Set.univ s (s.tearDownSteps p)
  | attach {D s p} (fresh : (s.port p).attached = false ∨ (s.port p).notices = []) : ClaimMove D D s (s.attach p)
  | detach {D s p} (lost : Bool) (free : ∀ k, s.slot p k = .free) (fresh : (s.port p).notices = []) :
      ClaimMove D D s (s.setPort p { (s.port p).detach with sessionLost := lost })
  | openGate {D s ch} (due : (s.chan ch).state = .guard s.now) :
      ClaimMove D D s (s.setChan ch { s.chan ch with state := .idle })

/-- A change of the store, the configuration unit or the supply-low flag. -/
inductive StoreMove : State → State → Prop
  | openImage {s} (p : Port) (ready : s.device = .ready) (idle : s.cfg.staging = .idle)
      (unfrozen : s.cfg.storeFrozen = false) : StoreMove s { s with cfg := s.cfg.openImage p s.cfg.effective }
  | setImage {s img img' item index value} (opened : s.cfg.staging = .opened) (image : s.cfg.image = some img)
      (set : img.setField item index value = some img') :
      StoreMove s { s with cfg := { s.cfg with image := some img' } }
  | abort {s} (opened : s.cfg.staging = .opened) : StoreMove s { s with cfg := s.cfg.abort }
  | commit {s img} (ready : s.device = .ready) (opened : s.cfg.staging = .opened) (image : s.cfg.image = some img)
      (good : img.badItem = none) : StoreMove s (s.acceptCommit img)
  | erased {s req attempt} (engine : s.store.engine = .busy req attempt .erase) :
      StoreMove s { s with store := { s.store.setRow req.row blankRow with engine := .busy req attempt .write } }
  | written {s req attempt} (engine : s.store.engine = .busy req attempt .write) :
      StoreMove s { s with store := { s.store.setRow req.row req.bytes with engine := .busy req attempt .verify } }
  | verified {s req attempt} (engine : s.store.engine = .busy req attempt .verify) :
      StoreMove s (s.engineIdle.rowSucceeded req).kickEngine
  | retried {s req} (engine : s.store.engine = .busy req .first .verify) :
      StoreMove s ((s.spoilRow req).retryRow req)
  | failed {s req} (engine : s.store.engine = .busy req .second .verify) :
      StoreMove s (((s.spoilRow req).engineIdle.rowFailed req).kickEngine)
  | lowSet {s} (powered : s.supply.region ≠ .off) : StoreMove s { s with supply := { s.supply with low := true } }
  | lowClear {s} (released : s.supply.region = .released) :
      StoreMove s { s with supply := { s.supply with low := false } }.kickEngine

/-- A change of the link, of the GINH pin and what the channels take of it, or of what no invariant speaks of. -/
inductive LinkMove : State → State → Prop
  | pin {s} (kind : TransferKind) (p : Port) (c : PinChange) : LinkMove s (State.changePin kind p s c)
  | reply {s p tag c status fields} (ready : s.device = .ready) :
      LinkMove s (s.placeReply p tag c status fields)
  | own {s} (served : Port) (availSweep faultSweep : Option Nat) (free : Nat) :
      LinkMove s { s with served := served, availSweep := availSweep, faultSweep := faultSweep, free := free }
  | hold {s} (ready : s.device = .ready) : LinkMove s { s with hold := .holding }
  | ginhPin {s} (level : Bool) : LinkMove s { s with ginhPin := level }
  | ginh {s} (ch : Channel) (level : Bool) (running : s.device ≠ .inReset) :
      LinkMove s (s.setChan ch ((s.chan ch).takeGinh level))

/-- An indivisible change within a boot. -/
inductive Move : Set RecIx → Set RecIx → State → State → Prop
  | claim {D E s t} (ready : s.device = .ready) (move : ClaimMove D E s t) : Move D E s t
  | store {D s t} (move : StoreMove s t) : Move D D s t
  | link {D s t} (move : LinkMove s t) : Move D D s t

/-- The work of a row: indivisible changes one after another; a record without an entry may stand at the
indices of the set alone. -/
inductive Work (s : State) : Set RecIx → State → Prop
  | refl : Work s ∅ s
  | tail {D E t u} (work : Work s D t) (move : Move D E t u) : Work s E u
  | weaken {D E t} (work : Work s D t) (sub : D ⊆ E) : Work s E t

/-- The start of a device reset, the start of BOOT, or its end (R180 to R190). -/
inductive Boundary : State → State → Prop
  | brownout {s} (running : s.device ≠ .inReset) :
      Boundary s ({ s with supply := s.supply.hold }.beginReset .brownout)
  | sag {s} (inReset : s.device = .inReset) (released : s.supply.region = .released) :
      Boundary s { s with supply := s.supply.hold }
  | powerOff {s} (running : s.device ≠ .inReset) :
      Boundary s { s.beginReset .brownout with supply := ⟨.off, false, none⟩, restartTick := false }
  | powerOffInReset {s} (inReset : s.device = .inReset) :
      Boundary s { s with supply := ⟨.off, false, none⟩, restartTick := false }
  | powerOn {s} (off : s.supply.region = .off) :
      Boundary s ({ s with supply := s.supply.hold, restartTick := false }.beginReset .powerOn)
  | release {s} (held : s.supply.region = .held) :
      Boundary s { s with supply := { s.supply with region := .released } }.leaveReset
  | rstLow {s} (running : s.device ≠ .inReset) : Boundary s ({ s with rstLow := true }.beginReset .pin)
  | rstLowInReset {s} (inReset : s.device = .inReset) : Boundary s { s with rstLow := true }
  | rstHigh {s} : Boundary s { s with rstLow := false }.leaveReset
  | restart {s} (runs : s.hold ≠ .none) : Boundary s s.endHold
  | bootEnd {s} (boot : s.device = .boot) : Boundary s s.endBoot

/-! ### What every change of a boot leaves -/

/-- What no change within a boot touches. -/
structure SameBoot (s t : State) : Prop where
  device : t.device = s.device
  now : t.now = s.now
  pending : t.pending = s.pending
  restartTick : t.restartTick = s.restartTick
  region : t.supply.region = s.supply.region
  cause : t.supply.cause = s.supply.cause
  rstLow : t.rstLow = s.rstLow
  effective : t.cfg.effective = s.cfg.effective
  factoryRow : t.store.factoryRow = s.store.factoryRow
  chan : ∀ ch, (t.chan ch).key = (s.chan ch).key ∧ (t.chan ch).guard = (s.chan ch).guard

theorem SameBoot.refl (s : State) : SameBoot s s := ⟨rfl, rfl, rfl, rfl, rfl, rfl, rfl, rfl, rfl, fun _ => ⟨rfl, rfl⟩⟩

theorem SameBoot.trans {s t u : State} (h : SameBoot s t) (k : SameBoot t u) : SameBoot s u where
  device := k.device.trans h.device
  now := k.now.trans h.now
  pending := k.pending.trans h.pending
  restartTick := k.restartTick.trans h.restartTick
  region := k.region.trans h.region
  cause := k.cause.trans h.cause
  rstLow := k.rstLow.trans h.rstLow
  effective := k.effective.trans h.effective
  factoryRow := k.factoryRow.trans h.factoryRow
  chan ch := ⟨(k.chan ch).1.trans (h.chan ch).1, (k.chan ch).2.trans (h.chan ch).2⟩

theorem ClaimFrame.sameBoot {s t : State} (frame : ClaimFrame s t) : SameBoot s t where
  device := frame.device
  now := frame.now
  pending := frame.pending
  restartTick := frame.restartTick
  region := by rw [frame.supply]
  cause := by rw [frame.supply]
  rstLow := frame.rstLow
  effective := by rw [frame.cfg]
  factoryRow := by rw [Store.factoryRow, frame.rows, Store.factoryRow]
  chan ch := by rw [frame.chan ch]; exact ⟨rfl, rfl⟩

/-- A change of the staging alone is within the boot. -/
theorem SameBoot.of_effective {s : State} {cfg : ConfigUnit} (effective : cfg.effective = s.cfg.effective) :
    SameBoot s { s with cfg := cfg } := { SameBoot.refl s with effective := effective }

theorem State.enqueue_frame (s : State) (p : Port) (pl : Place) (mode : Mode) (lease wait : Half) :
    ClaimFrame s (s.enqueue p pl mode lease wait).st := by
  refine ClaimFrame.trans ?_ ((State.setRecord_frame _ _ _).trans (State.setSlot_frame _ _ _ _))
  split
  · exact s.noteDemand_frame
  · exact ClaimFrame.refl s

theorem State.grantAtOnce_frame (s : State) (p : Port) (pl : Place) (mode : Mode) (lease : Half) :
    ClaimFrame s (s.grantAtOnce p pl mode lease).st :=
  (s.addHolding_frame _ _ _ _ _ _).trans (State.reportStart_frame _ _ _)

theorem State.modPort_queue_frame (s : State) (p : Port) (notices : List Notice) :
    ClaimFrame s (s.modPort p fun u => { u with notices := notices }) := by
  constructor
  case port =>
    intro q
    rw [State.port_modPort]
    split
    · rename_i same; rw [same]
    · rfl
  all_goals intros; rfl

theorem State.settleAcknowledged_frame (s : State) (p : Port) (k : SlotIx) :
    ClaimFrame s (s.settleAcknowledged p k) := by
  unfold State.settleAcknowledged
  split
  case h_1 =>
    split
    · exact s.setSlot_frame _ _ _
    · exact ClaimFrame.refl s
  all_goals exact ClaimFrame.refl s

theorem ClaimMove.sameBoot {D E : Set RecIx} {s t : State} (move : ClaimMove D E s t) : SameBoot s t := by
  cases move
  case grantHead => exact (State.grantHead_frame _ _ _ _ _).sameBoot
  case markReserved => exact (State.markReserved_frame _ _ _ _ _).sameBoot
  case retire i => exact (s.retire_frame i).sameBoot
  case endHolding => exact (State.endHolding_frame _ _ _ _ _ _).sameBoot
  case dropWaiter => exact (State.dropWaiter_frame _ _ _ _ _).sameBoot
  case grantAtOnce => exact (State.grantAtOnce_frame _ _ _ _ _).sameBoot
  case enqueue => exact (State.enqueue_frame _ _ _ _ _ _).sameBoot
  case noteDemand => exact s.noteDemand_frame.sameBoot
  case moveLease => exact ((State.setRecord_frame _ _ _).trans (State.setSlot_frame _ _ _ _)).sameBoot
  case acknowledge =>
    exact ((State.modPort_queue_frame _ _ _).trans (State.settleAcknowledged_frame _ _ _)).sameBoot
  case tearDown p =>
    exact (SameBoot.of_effective (s.cfg.tearStaging_effective p)).trans (s.tearDownSteps_frame p).sameBoot
  case attach => exact { SameBoot.refl s with }
  case detach => exact { SameBoot.refl s with }
  case openGate => exact (State.setChan_frame _ _ _ rfl).sameBoot

/-! ### The engine's inputs -/

/-- What serving the inputs of the engine changes: the engine with its inputs, and the staging. -/
theorem State.kickEngine_eq (s : State) : ∃ engine advanceInput commitInput cfg, s.kickEngine = { s with
    store := { s.store with engine := engine, advanceInput := advanceInput, commitInput := commitInput }
    cfg := cfg } ∧ cfg.effective = s.cfg.effective := by
  unfold State.kickEngine State.startCommitRow
  split
  · exact ⟨_, _, _, s.cfg, rfl, rfl⟩
  split
  · exact ⟨_, _, _, s.cfg, rfl, rfl⟩
  split
  · exact ⟨_, _, _, s.cfg, rfl, rfl⟩
  split
  · dsimp only
    split
    · split
      · exact ⟨_, _, _, _, rfl, rfl⟩
      · exact ⟨_, _, _, _, rfl, rfl⟩
    · exact ⟨_, _, _, s.cfg, rfl, rfl⟩
  · exact ⟨_, _, _, s.cfg, rfl, rfl⟩

theorem State.kickEngine_sameBoot (s : State) : SameBoot s s.kickEngine := by
  obtain ⟨engine, advance, commit, cfg, same, effective⟩ := s.kickEngine_eq
  rw [same]
  exact { SameBoot.refl s with effective := effective }

theorem State.rowSucceeded_sameBoot (s : State) (req : RowRequest) : SameBoot s (s.rowSucceeded req) := by
  unfold State.rowSucceeded
  split
  case h_1 side =>
    refine SameBoot.trans ?_ (State.lowWaterTest_frame _).sameBoot
    exact { SameBoot.refl s with }
  case h_2 =>
    unfold State.handSecondRow
    split <;> exact { SameBoot.refl s with }
  case h_3 side =>
    refine SameBoot.of_effective ?_
    unfold ConfigUnit.completeCommit
    split
    · rename_i target _
      rcases target with ⟨_ | _, seq⟩ <;> rfl
    · rfl

theorem ConfigUnit.failCommit_effective (c : ConfigUnit) : c.failCommit.effective = c.effective := by
  unfold ConfigUnit.failCommit
  split
  · rename_i target _
    rcases target with ⟨_ | _, seq⟩ <;> rfl
  · rfl

theorem State.rowFailed_sameBoot (s : State) (req : RowRequest) : SameBoot s (s.rowFailed req) := by
  unfold State.rowFailed
  split
  · exact { SameBoot.refl s with }
  · exact SameBoot.of_effective s.cfg.failCommit_effective
  · exact SameBoot.of_effective s.cfg.failCommit_effective

theorem State.spoilRow_sameBoot (s : State) (req : RowRequest) : SameBoot s (s.spoilRow req) :=
  { SameBoot.refl s with factoryRow := Store.factoryRow_setRow _ _ _ }

theorem State.engineIdle_sameBoot (s : State) : SameBoot s s.engineIdle := { SameBoot.refl s with }

theorem StoreMove.sameBoot {s t : State} (move : StoreMove s t) : SameBoot s t := by
  cases move
  case openImage => exact SameBoot.of_effective rfl
  case setImage => exact SameBoot.of_effective rfl
  case abort => exact SameBoot.of_effective rfl
  case commit =>
    refine SameBoot.trans ?_ (State.kickEngine_sameBoot _)
    exact { SameBoot.refl s with }
  case erased req _ _ => exact { SameBoot.refl s with factoryRow := s.store.factoryRow_setRow req.row _ }
  case written req _ _ => exact { SameBoot.refl s with factoryRow := s.store.factoryRow_setRow req.row _ }
  case verified req _ _ =>
    exact (s.engineIdle_sameBoot.trans (State.rowSucceeded_sameBoot _ req)).trans (State.kickEngine_sameBoot _)
  case retried req _ => exact (s.spoilRow_sameBoot req).trans { SameBoot.refl _ with }
  case failed req _ =>
    exact (((s.spoilRow_sameBoot req).trans (State.engineIdle_sameBoot _)).trans
      (State.rowFailed_sameBoot _ req)).trans (State.kickEngine_sameBoot _)
  case lowSet => exact { SameBoot.refl s with }
  case lowClear =>
    refine SameBoot.trans ?_ (State.kickEngine_sameBoot _)
    exact { SameBoot.refl s with }

theorem GateChannel.takeGinh_key_guard (c : GateChannel) (level : Bool) :
    (c.takeGinh level).key = c.key ∧ (c.takeGinh level).guard = c.guard := by
  obtain ⟨key, guard, state, ginh⟩ := c
  cases state <;> exact ⟨rfl, rfl⟩

theorem LinkMove.sameBoot {s t : State} (move : LinkMove s t) : SameBoot s t := by
  cases move
  case pin => exact { SameBoot.refl s with }
  case reply => exact { SameBoot.refl s with }
  case own => exact { SameBoot.refl s with }
  case hold => exact { SameBoot.refl s with }
  case ginhPin => exact { SameBoot.refl s with }
  case ginh ch level _ =>
    refine { SameBoot.refl s with chan := fun d => ?_ }
    rw [State.chan_setChan]
    split
    · rename_i same; rw [same]; exact (s.chan ch).takeGinh_key_guard level
    · exact ⟨rfl, rfl⟩

theorem Move.sameBoot {D E : Set RecIx} {s t : State} (move : Move D E s t) : SameBoot s t := by
  cases move with
  | claim ready move => exact move.sameBoot
  | store move => exact move.sameBoot
  | link move => exact move.sameBoot

theorem Work.sameBoot {D : Set RecIx} {s t : State} (work : Work s D t) : SameBoot s t := by
  induction work with
  | refl => exact SameBoot.refl s
  | tail work move ih => exact ih.trans move.sameBoot
  | weaken work sub ih => exact ih

/-! ### Work put together -/

section
variable {s t u : State} {D E : Set RecIx}

theorem Work.claim (work : Work s D t) (ready : s.device = .ready) (move : ClaimMove D E t u) : Work s E u :=
  work.tail (.claim (work.sameBoot.device.trans ready) move)

theorem Work.link (work : Work s D t) (move : LinkMove t u) : Work s D u := work.tail (.link move)

theorem Work.trans (work : Work s ∅ t) (more : Work t D u) : Work s D u := by
  induction more with
  | refl => exact work
  | tail _ move ih => exact ih.tail move
  | weaken _ sub ih => exact ih.weaken sub

theorem Work.of_claim (ready : s.device = .ready) (move : ClaimMove ∅ ∅ s t) : Work s ∅ t :=
  Work.refl.claim ready move

theorem Work.of_store (move : StoreMove s t) : Work s ∅ t := Work.refl.tail (.store move)

theorem Work.of_link (move : LinkMove s t) : Work s ∅ t := Work.refl.link move

theorem Work.settled (work : Work s D t) (nothing : D ⊆ ∅) : Work s ∅ t := work.weaken nothing

/-- What a step of a chain keeps, the chain keeps. -/
theorem Work.keeps {P : State → Prop} (move : ∀ {D E s t}, Move D E s t → P s → P t) (work : Work s D t)
    (start : P s) : P t := by
  induction work with
  | refl => exact start
  | tail _ step ih => exact move step ih
  | weaken _ _ ih => exact ih

/-! ### The claim engine -/

variable (ready : s.device = .ready)
include ready

theorem Work.retire (work : Work s D t) (i : RecIx) : Work s (D \ {i}) (t.retire i) := work.claim ready (.retire i)

theorem Work.grantPass (work : Work s D t) (i : RecIx) : Work s (D \ {i}) (t.grantPass i) := by
  cases stands : t.record i with
  | none =>
    have same : t.retire i = t := State.retire_of_nonempty fun r found => by rw [stands] at found; cases found
    rw [t.grantPass_none i stands]
    exact same ▸ work.retire ready i
  | some r =>
    induction waits : r.waiters generalizing t r with
    | nil =>
      rw [t.grantPass_noWaiters i r stands waits]
      exact work.retire ready i
    | cons w rest ih =>
      cases admissible : t.admissible r w.mode with
      | true =>
        rw [State.grantPass_of_admissible stands waits admissible]
        have record := t.grantHead_record i i r w rest
        rw [if_pos rfl] at record
        exact ih (work.claim ready (.grantHead stands waits admissible)) _ record rfl
      | false =>
        obtain ⟨state, record⟩ := State.markReserved_record_head stands waits
        have same : (t.markReserved i r w rest).retire i = t.markReserved i r w rest :=
          State.retire_of_nonempty fun r' found => by
            cases record.symm.trans found
            exact Record.isEmpty_of_waiters rfl
        rw [State.grantPass_of_stopped stands waits admissible, ← same]
        exact (work.claim ready (.markReserved stands waits admissible)).retire ready i

theorem Work.passOrRetire (work : Work s D t) (i : RecIx) (passed : Bool) :
    Work s (D \ {i}) (t.passOrRetire i passed) := by
  cases passed with
  | true => exact work.grantPass ready i
  | false => exact work.retire ready i

theorem Work.departWaiter {i : RecIx} {r : Record} {w : Waiter} (work : Work s ∅ t) (cause : Option Reason)
    (stands : t.record i = some r) (waiting : r.waiter w.port = some w) :
    Work s ∅ (t.departWaiter i r w cause) :=
  ((work.claim ready (.dropWaiter cause stands waiting)).passOrRetire ready i _).settled (by simp)

theorem Work.endAndPass {i : RecIx} {r : Record} {p : Port} {h : Holding} (work : Work s ∅ t)
    (cause : Option NoticeKind) (stands : t.record i = some r) (held : r.holder p = some h) :
    Work s ∅ ((t.endHolding i r p h cause).grantPass i) :=
  ((work.claim ready (.endHolding cause stands held)).grantPass ready i).settled (by simp)

theorem Work.revokeClaim (i : RecIx) (work : Work s {i} t) (p : Port) : Work s {i} (State.revokeClaim i t p) := by
  unfold State.revokeClaim
  split
  · exact work
  · rename_i r stands
    split
    · rename_i h held
      exact (work.claim ready (.endHolding _ stands held)).weaken (by simp)
    · split
      · rename_i w waiting
        exact (work.claim ready (.dropWaiter _ stands (Record.waiter_port waiting ▸ waiting))).weaken (by simp)
      · exact work

theorem Work.revokeClaims (i : RecIx) (l : List Port) (work : Work s {i} t) :
    Work s {i} (l.foldl (State.revokeClaim i) t) := by
  induction l generalizing t with
  | nil => exact work
  | cons p l ih => exact ih (work.revokeClaim ready i p)

/-- The passes and retirements of a teardown settle the indices they run through (R95). -/
theorem Work.passes (before : State) (p : Port) (l : List RecIx) (work : Work s {i | i ∉ D} t) :
    Work s {i | i ∉ D ∧ i ∉ l} (l.foldl (State.passAfterTeardown before p) t) := by
  induction l generalizing t D with
  | nil => exact work.weaken fun i mem => ⟨mem, by simp⟩
  | cons j l ih =>
    have pass : Work s {i | i ∉ insert j D} (State.passAfterTeardown before p t j) :=
      (work.passOrRetire ready j _).weaken fun i mem => by
        simp only [Set.mem_sdiff, Set.mem_ofPred_eq, Set.mem_singleton_iff] at mem
        simp [mem]
    refine (ih pass).weaken fun i mem => ?_
    simp only [Set.mem_insert_iff, not_or, Set.mem_ofPred_eq] at mem
    simp [mem]

theorem Work.tearDown (work : Work s ∅ t) (p : Port) : Work s ∅ (t.tearDown p) := by
  have steps : Work s {i | i ∉ (∅ : Set RecIx)} (t.tearDownSteps p) :=
    (work.claim ready (.tearDown p)).weaken fun _ _ => by simp
  exact (steps.passes ready t p (List.finRange 24)).settled fun i mem => absurd (List.mem_finRange i) mem.2

end

/-! ### The bodies of the commands -/

section
variable {s : State} (ready : s.device = .ready) {p : Port}
include ready

theorem acquireBody_work (attached : (s.port p).attached = true) (key : Word) (mode : Byte) (lease wait : Half) :
    Work s ∅ (acquireBody p key mode lease wait s).st := by
  unfold acquireBody
  split
  · exact .refl
  rename_i m params
  obtain ⟨-, nonzero, -, low, high, waitFits, -⟩ := (acquireParams_eq_ok_iff _ _ _ _ _ _).mp params
  split
  · exact .refl
  rename_i pl place
  have key_eq := State.acquirePlace_key place
  obtain ⟨free, -, stands, -⟩ := State.acquirePlace_eq_ok_iff_found.mp place
  have fits : pl.Fits s p := by
    refine ⟨attached, by rwa [key_eq], ?_, ?_, ?_, free⟩
    · rcases stands with ⟨own, -, -⟩ | ⟨absent, fresh, nothing, -⟩
      · exact Or.inl (State.lookRecord_record own)
      · rw [key_eq]
        refine Or.inr ⟨nothing, fresh, fun j r found same => ?_⟩
        have none_found := (s.lookRecord_eq_none_iff key).mp absent
        rw [State.findRecord, List.find?_eq_none] at none_found
        exact none_found j (List.mem_finRange j) (by simp [found, same])
    · rcases stands with ⟨-, unheld, -⟩ | ⟨-, fresh, -⟩
      · exact unheld
      · rw [fresh, Record.holder_fresh]
    · rcases stands with ⟨-, -, unwaiting⟩ | ⟨-, fresh, -⟩
      · exact unwaiting
      · rw [fresh]; rfl
  split
  · rename_i grants
    rw [Bool.and_eq_true, List.isEmpty_iff] at grants
    exact .of_claim ready (.grantAtOnce fits grants.1 grants.2 ⟨low, high⟩)
  · split
    · unfold State.refuseUnqueued
      split
      · exact .of_claim ready .noteDemand
      · exact .refl
    · rename_i waits
      exact .of_claim ready (.enqueue fits ⟨low, high⟩ waits waitFits)

theorem releaseBody_work (key token : Word) : Work s ∅ (releaseBody p key token s).st := by
  unfold releaseBody
  split
  · exact .refl
  · rename_i i r h found
    obtain ⟨look, held⟩ := State.holdingOf_eq_some_iff.mp found
    split
    · exact .refl
    · exact Work.refl.endAndPass ready none (State.lookRecord_record look) held

theorem cancelBody_work (key : Word) : Work s ∅ (cancelBody p key s).st := by
  unfold cancelBody
  split
  · exact .refl
  · rename_i i r w found
    obtain ⟨look, waiting⟩ := State.waitingOf_eq_some_iff.mp found
    exact Work.refl.departWaiter ready none (State.lookRecord_record look) (Record.waiter_port waiting ▸ waiting)

theorem renewBody_work (key token : Word) (lease : Half) : Work s ∅ (renewBody p key token lease s).st := by
  unfold renewBody
  split
  · exact .refl
  · rename_i inRange
    rw [Bool.not_eq_true', Bool.not_eq_false, leaseInRange_iff_bounds] at inRange
    split
    · exact .refl
    · rename_i i r h found
      obtain ⟨look, held⟩ := State.holdingOf_eq_some_iff.mp found
      split
      · exact .refl
      · exact .of_claim ready (.moveLease (State.lookRecord_record look) held inRange)

theorem ackNoticeBody_work (seq : Byte) : Work s ∅ (ackNoticeBody p seq s).st := by
  unfold ackNoticeBody
  split
  · exact .refl
  · rename_i n rest oldest
    split
    · exact .refl
    · exact .of_claim ready (.acknowledge oldest)

theorem revokeBody_work (key : Word) (target : Byte) : Work s ∅ (revokeBody p key target s).st := by
  unfold revokeBody
  split
  · exact .refl
  split
  · exact .refl
  split
  · exact .refl
  split
  · exact .refl
  · rename_i i r found
    dsimp only
    split
    · exact .refl
    · exact (((Work.refl.weaken (Set.empty_subset {i})).revokeClaims ready i _).passOrRetire ready i _).settled
        (by simp)

/-! ### Sessions -/

theorem helloBody_work : Work s ∅ (helloBody p s).st := by
  unfold helloBody
  dsimp only
  split
  · refine (Work.refl.tearDown ready p).claim ready (.attach (Or.inr ?_))
    rw [(s.tearDown_clears p).2.1]
  · rename_i detached
    exact .of_claim ready (.attach (Or.inl (Bool.eq_false_iff.mpr detached)))

theorem byeBody_work : Work s ∅ (byeBody p s).st := by
  obtain ⟨-, port, slot⟩ := s.tearDown_clears p
  exact (Work.refl.tearDown ready p).claim ready (.detach ((s.tearDown p).port p).sessionLost slot (by rw [port]))

theorem ejectBody_work (target : Byte) : Work s ∅ (ejectBody p target s).st := by
  unfold ejectBody
  split
  · exact .refl
  split
  · exact .refl
  · rename_i q _
    split
    · exact .refl
    split
    · exact .refl
    · obtain ⟨-, port, slot⟩ := s.tearDown_clears q
      exact (Work.refl.tearDown ready q).claim ready (.detach true slot (by rw [port]))

/-! ### Staging -/

theorem stageBeginBody_work : Work s ∅ (stageBeginBody p s).st := by
  unfold stageBeginBody
  split
  · exact .refl
  split
  · exact .refl
  split
  · exact .refl
  · rename_i unfrozen idle
    exact .of_store (.openImage p ready (not_not.mp idle) (Bool.eq_false_iff.mpr unfrozen))

omit ready in
/-- An image is open for a body that works on it. -/
theorem State.withOpenImage_work {body : Image → Answer}
    (works : ∀ img, s.cfg.staging = .opened → s.cfg.image = some img → Work s ∅ (body img).st) :
    Work s ∅ (s.withOpenImage p body).st := by
  unfold State.withOpenImage
  split
  · exact .refl
  split
  · exact .refl
  split
  · rename_i opened _ _ _ image
    exact works _ (not_not.mp opened) image
  · exact .refl

theorem commitBody_work : Work s ∅ (s.withOpenImage p (commitBody s)).st := by
  refine State.withOpenImage_work fun img opened image => ?_
  unfold commitBody
  split
  · exact .refl
  · rename_i good
    exact .of_store (.commit ready opened image good)

omit ready in
theorem stageSetBody_work (item index : Byte) (value : Word) :
    Work s ∅ (s.withOpenImage p (stageSetBody item index value s)).st := by
  refine State.withOpenImage_work fun img opened image => ?_
  unfold stageSetBody
  split
  · exact .refl
  · rename_i img' set
    obtain ⟨it, -, set⟩ := Option.bind_eq_some_iff.mp set
    exact .of_store (.setImage opened image set)

theorem restartBody_work : Work s ∅ (restartBody p s).st := by
  unfold restartBody
  split
  · exact .of_link (.hold ready)
  · exact .refl

end

/-- A body that changes nothing, whatever it answers. -/
theorem Work.of_same {s t : State} (same : t = s) : Work s ∅ t := same ▸ .refl

theorem verifyBody_st (key token : Word) (s : State) : (verifyBody key token s).st = s := by
  unfold verifyBody
  split
  · rfl
  split
  · rfl
  split <;> rfl

theorem peekNoticeBody_st (p : Port) (s : State) : (peekNoticeBody p s).st = s := by
  unfold peekNoticeBody
  split <;> rfl

theorem lookupBody_st (p : Port) (key : Word) (s : State) : (lookupBody p key s).st = s := by
  unfold lookupBody
  dsimp only
  split
  · rfl
  split
  · rfl
  split <;> rfl

theorem listBody_st (p : Port) (start : Byte) (s : State) : (listBody p start s).st = s := by
  unfold listBody
  split
  · rfl
  split <;> rfl

theorem mySlotBody_st (p : Port) (index : Byte) (s : State) : (mySlotBody p index s).st = s := by
  unfold mySlotBody
  split <;> rfl

theorem stageReadBody_st (item index : Byte) (s : State) (img : Image) : (stageReadBody item index s img).st = s := by
  unfold stageReadBody
  split <;> rfl

/-! ### The rows of a command -/

/-- A command row is its body's work, and its reply; or nothing. -/
theorem State.runCommand_work (s : State) {p : Port} {c : Instr} {body : State → Answer}
    (works : ∀ s : State, s.device = .ready → Work s ∅ (body s).st) :
    ∃ t, s.runCommand p c body = .next t ∧ Work s ∅ t := by
  cases taken : s.takenTag p c with
  | none => exact ⟨s, State.runCommand_untaken taken, .refl⟩
  | some tag =>
    have ready : s.device = .ready := (s.takesCommands_iff.mp ((s.takenTag_eq_some_iff p c tag).mp taken).1).1
    refine ⟨_, State.runCommand_taken taken, ?_⟩
    have started : Work s ∅ { s with served := p } := .of_link (.own p s.availSweep s.faultSweep s.free)
    have done := works { s with served := p } ready
    exact (started.trans done).link (.reply (done.sameBoot.device.trans ready))

theorem State.runCommand_whenAttached_work (s : State) {p : Port} {c : Instr} {body : State → Answer}
    (works : ∀ s : State, s.device = .ready → (s.port p).attached = true → Work s ∅ (body s).st) :
    ∃ t, s.runCommand p c (fun s => s.whenAttached p body) = .next t ∧ Work s ∅ t := by
  refine s.runCommand_work fun s ready => ?_
  unfold State.whenAttached
  split
  · rename_i attached; exact works s ready attached
  · exact .refl

end Sys2Proof.Machine
end

section
/-! Every row of the table is work, the boundary of a boot, or a tick. -/

namespace Sys2Proof.Machine

/-! ### Expiries, reports, withdrawals -/

section
variable {s t : State} {D : Set RecIx} (ready : s.device = .ready)
include ready

theorem Work.expireLease (work : Work s ∅ t) (p : Port) (key : Word) : Work s ∅ (t.expireLease p key) := by
  unfold State.expireLease
  split
  · rename_i i r h found
    obtain ⟨look, held⟩ := State.holdingOf_eq_some_iff.mp found
    split
    · exact work.endAndPass ready _ (State.lookRecord_record look) held
    · exact work
  · exact work

theorem Work.expireWait (work : Work s ∅ t) (p : Port) (key : Word) : Work s ∅ (t.expireWait p key) := by
  unfold State.expireWait
  split
  · rename_i i r w found
    obtain ⟨look, waiting⟩ := State.waitingOf_eq_some_iff.mp found
    split
    · exact work.departWaiter ready _ (State.lookRecord_record look) (Record.waiter_port waiting ▸ waiting)
    · exact work
  · exact work

theorem Work.reportIdle (work : Work s ∅ t) (ch : Channel) : Work s ∅ (t.reportIdle ch) := by
  unfold State.reportIdle
  split
  · rename_i i _; exact (work.grantPass ready i).settled (by simp)
  · exact work

theorem Work.expireGuard (work : Work s ∅ t) (ch : Channel) : Work s ∅ (t.expireGuard ch) := by
  unfold State.expireGuard
  split
  case h_1 deadline state =>
    split
    · rename_i reached
      rw [State.reached_iff] at reached
      exact (work.claim ready (.openGate (by rw [state, reached]))).reportIdle ready ch
    · exact work
  all_goals exact work

theorem Work.withdrawOldest (reason : Reason) (i : RecIx) (work : Work s {i} t) :
    Work s {i} (State.withdrawOldest reason t i) := by
  unfold State.withdrawOldest
  split
  · exact work
  · rename_i r stands
    split
    · exact work
    · rename_i w rest waits
      have waiting : r.waiter w.port = some w := by simp [Record.waiter, waits]
      exact (work.claim ready (.dropWaiter _ stands waiting)).weaken (by simp)

theorem Work.withdrawRecord (reason : Reason) (i : RecIx) (work : Work s ∅ t) :
    Work s ∅ (t.withdrawRecord reason i) := by
  have withdrawn : ∀ n, Work s {i} (Nat.repeat (fun s => State.withdrawOldest reason s i) n t) := by
    intro n
    induction n with
    | zero => exact work.weaken (Set.empty_subset _)
    | succ n ih => exact ih.withdrawOldest ready reason i
  exact ((withdrawn _).grantPass ready i).settled (by simp)

end

/-! ### The link -/

theorem State.changePins_work (kind : TransferKind) (p : Port) (s : State) (pins : List PinChange) :
    Work s ∅ (s.changePins kind p pins) := by
  induction pins generalizing s with
  | nil => exact .refl
  | cons c pins ih => exact (Work.of_link (.pin kind p c)).trans (ih _)

/-! ### The events -/

theorem exec_reservedHeadPass_work (s : State) : ∃ t, exec .reservedHeadPass s = .next t ∧ Work s ∅ t := by
  show ∃ t, execReservedHeadPass s = .next t ∧ Work s ∅ t
  unfold execReservedHeadPass
  split
  · rename_i ready _
    split
    · exact ⟨_, rfl, .of_link (.own s.served none s.faultSweep s.free)⟩
    · rename_i i _
      have pass : Work s ∅ (s.grantPass i) := (Work.refl.grantPass ready i).settled (by simp)
      exact ⟨_, rfl, pass.link (.own _ _ _ _)⟩
  · exact ⟨s, rfl, .refl⟩

theorem exec_tokenFaultWithdrawal_work (s : State) : ∃ t, exec .tokenFaultWithdrawal s = .next t ∧ Work s ∅ t := by
  show ∃ t, execTokenFaultWithdrawal s = .next t ∧ Work s ∅ t
  unfold execTokenFaultWithdrawal
  split
  · rename_i ready _
    split
    · exact ⟨_, rfl, .of_link (.own s.served s.availSweep none s.free)⟩
    · rename_i i _
      have withdrawn := Work.refl.withdrawRecord ready s.tok.state.withdrawalReason i
      exact ⟨_, rfl, withdrawn.link (.own _ _ _ _)⟩
  · exact ⟨s, rfl, .refl⟩

theorem exec_ginhChange_work (ch : Channel) (level : Bool) (s : State) :
    ∃ t, exec (.ginhChange ch level) s = .next t ∧ Work s ∅ t := by
  have pin : Work s ∅ { s with ginhPin := level } := .of_link (.ginhPin level)
  by_cases inReset : s.device = .inReset
  · exact ⟨_, exec_ginhChange_of_inReset ch level inReset, pin⟩
  · exact ⟨_, exec_ginhChange_of_running ch level inReset, pin.link (.ginh ch level inReset)⟩

theorem exec_rowEraseDone_work (s : State) : ∃ t, exec .rowEraseDone s = .next t ∧ Work s ∅ t := by
  show ∃ t, execRowEraseDone s = .next t ∧ Work s ∅ t
  unfold execRowEraseDone
  split
  case h_1 req attempt engine => exact ⟨_, rfl, .of_store (.erased engine)⟩
  all_goals exact ⟨s, rfl, .refl⟩

theorem exec_rowWriteDone_work (s : State) : ∃ t, exec .rowWriteDone s = .next t ∧ Work s ∅ t := by
  show ∃ t, execRowWriteDone s = .next t ∧ Work s ∅ t
  unfold execRowWriteDone
  split
  case h_1 req attempt engine => exact ⟨_, rfl, .of_store (.written engine)⟩
  all_goals exact ⟨s, rfl, .refl⟩

theorem exec_rowVerifyEnd_work (matched : Bool) (s : State) :
    ∃ t, exec (.rowVerifyEnd matched) s = .next t ∧ Work s ∅ t := by
  show ∃ t, execRowVerifyEnd matched s = .next t ∧ Work s ∅ t
  unfold execRowVerifyEnd
  split
  case h_1 req attempt engine =>
    cases matched with
    | true => exact ⟨_, rfl, .of_store (.verified engine)⟩
    | false =>
      cases attempt with
      | first => exact ⟨_, rfl, .of_store (.retried engine)⟩
      | second => exact ⟨_, rfl, .of_store (.failed engine)⟩
  all_goals exact ⟨s, rfl, .refl⟩

theorem exec_supplyLowSet_work (s : State) : ∃ t, exec .supplyLowSet s = .next t ∧ Work s ∅ t := by
  show ∃ t, execSupplyLowSet s = .next t ∧ Work s ∅ t
  unfold execSupplyLowSet
  cases region : s.supply.region with
  | off => exact ⟨s, rfl, .refl⟩
  | held => exact ⟨_, rfl, .of_store (.lowSet (by simp [region]))⟩
  | released => exact ⟨_, rfl, .of_store (.lowSet (by simp [region]))⟩

theorem exec_supplyLowClear_work (s : State) : ∃ t, exec .supplyLowClear s = .next t ∧ Work s ∅ t := by
  show ∃ t, execSupplyLowClear s = .next t ∧ Work s ∅ t
  unfold execSupplyLowClear
  cases region : s.supply.region with
  | off => exact ⟨s, rfl, .refl⟩
  | held => exact ⟨s, rfl, .refl⟩
  | released => exact ⟨_, rfl, .of_store (.lowClear region)⟩

/-! ### The rows -/

/-- What a row other than TICK does. -/
def Runs (s t : State) : Prop := Work s ∅ t ∨ Boundary s t

theorem exec_runs_of_event {c : Instr} {s : State} (work : ∃ t, exec c s = .next t ∧ Work s ∅ t) :
    ∃ t, exec c s = .next t ∧ Runs s t := by
  obtain ⟨t, row, work⟩ := work
  exact ⟨t, row, Or.inl work⟩

/-- A row of the supply, the RST pin, the RESTART hold or BOOT (R181, R182, R188, R190). -/
def isBoundaryRow (c : Instr) : Bool :=
  match c with
  | .brownout | .supplyBelowPowerOnLevel | .powerOn | .supplyRelease | .rstTakenLow | .rstTakenHigh
  | .restartHoldEnd | .bootEnd | .supplyBelowBrownoutInReset => true
  | _ => false

theorem exec_boundary_runs {c : Instr} (boundary : isBoundaryRow c = true) (s : State) :
    ∃ t, exec c s = .next t ∧ Runs s t := by
  have stays : ∃ t, Host.Outcome.next s = (.next t : Host.Outcome State Fault Refusal) ∧ Runs s t :=
    ⟨s, rfl, Or.inl .refl⟩
  cases c <;> cases boundary
  case brownout =>
    show ∃ t, execBrownout s = .next t ∧ Runs s t
    unfold execBrownout
    split
    · exact stays
    · exact ⟨_, rfl, Or.inr (.brownout (by rw [‹s.device = .boot›]; simp))⟩
    · exact ⟨_, rfl, Or.inr (.brownout (by rw [‹s.device = .ready›]; simp))⟩
  case supplyBelowPowerOnLevel =>
    show ∃ t, execSupplyBelowPowerOnLevel s = .next t ∧ Runs s t
    unfold execSupplyBelowPowerOnLevel
    cases device : s.device with
    | inReset => exact ⟨_, rfl, Or.inr (.powerOffInReset device)⟩
    | boot => exact ⟨_, rfl, Or.inr (.powerOff (by simp [device]))⟩
    | ready => exact ⟨_, rfl, Or.inr (.powerOff (by simp [device]))⟩
  case powerOn =>
    show ∃ t, execPowerOn s = .next t ∧ Runs s t
    unfold execPowerOn
    cases region : s.supply.region with
    | off => exact ⟨_, rfl, Or.inr (.powerOn region)⟩
    | held => exact stays
    | released => exact stays
  case supplyRelease =>
    show ∃ t, execSupplyRelease s = .next t ∧ Runs s t
    unfold execSupplyRelease
    cases region : s.supply.region with
    | off => exact stays
    | held => exact ⟨_, rfl, Or.inr (.release region)⟩
    | released => exact stays
  case rstTakenLow =>
    show ∃ t, execRstTakenLow s = .next t ∧ Runs s t
    unfold execRstTakenLow
    dsimp only
    split
    · exact ⟨_, rfl, Or.inr (.rstLowInReset ‹_›)⟩
    · exact ⟨_, rfl, Or.inr (.rstLow (by rw [‹s.device = .boot›]; simp))⟩
    · exact ⟨_, rfl, Or.inr (.rstLow (by rw [‹s.device = .ready›]; simp))⟩
  case rstTakenHigh => exact ⟨_, rfl, Or.inr .rstHigh⟩
  case restartHoldEnd =>
    show ∃ t, execRestartHoldEnd s = .next t ∧ Runs s t
    unfold execRestartHoldEnd
    cases hold : s.hold with
    | none => exact stays
    | holding => exact ⟨_, rfl, Or.inr (.restart (by simp [hold]))⟩
    | due => exact ⟨_, rfl, Or.inr (.restart (by simp [hold]))⟩
  case bootEnd =>
    show ∃ t, execBootEnd s = .next t ∧ Runs s t
    unfold execBootEnd
    cases device : s.device with
    | inReset => exact stays
    | boot => exact ⟨_, rfl, Or.inr (.bootEnd device)⟩
    | ready => exact stays
  case supplyBelowBrownoutInReset =>
    show ∃ t, execSupplyBelowBrownoutInReset s = .next t ∧ Runs s t
    unfold execSupplyBelowBrownoutInReset
    split
    · exact ⟨_, rfl, Or.inr (.sag ‹_› ‹_›)⟩
    · exact stays

/-- Every row but TICK answers a next state, which its work or the boundary of a boot leads to. -/
theorem exec_runs (c : Instr) (s : State) (notTick : c ≠ .tick) : ∃ t, exec c s = .next t ∧ Runs s t := by
  by_cases boundary : isBoundaryRow c = true
  · exact exec_boundary_runs boundary s
  refine exec_runs_of_event ?_
  have ifReady : ∀ u : State, (s.device = .ready → Work s ∅ u) → ∃ t,
      Host.Outcome.next (if s.device = .ready then u else s) = (.next t : Host.Outcome State Fault Refusal) ∧
        Work s ∅ t := by
    intro u work
    refine ⟨_, rfl, ?_⟩
    split
    · exact work ‹_›
    · exact .refl
  cases c
  case hello p => exact s.runCommand_work fun s ready => helloBody_work ready
  case bye p => exact s.runCommand_whenAttached_work fun s ready _ => byeBody_work ready
  case acquire p key mode lease wait =>
    exact s.runCommand_whenAttached_work fun s ready attached => acquireBody_work ready attached key mode lease wait
  case release p key token => exact s.runCommand_whenAttached_work fun s ready _ => releaseBody_work ready key token
  case cancel p key => exact s.runCommand_whenAttached_work fun s ready _ => cancelBody_work ready key
  case renew p key token lease =>
    exact s.runCommand_whenAttached_work fun s ready _ => renewBody_work ready key token lease
  case verify p key token => exact s.runCommand_whenAttached_work fun s _ _ => .of_same (verifyBody_st key token s)
  case peekNotice p => exact s.runCommand_whenAttached_work fun s _ _ => .of_same (peekNoticeBody_st p s)
  case ackNotice p seq => exact s.runCommand_whenAttached_work fun s ready _ => ackNoticeBody_work ready seq
  case lookup p key => exact s.runCommand_whenAttached_work fun s _ _ => .of_same (lookupBody_st p key s)
  case list p start => exact s.runCommand_whenAttached_work fun s _ _ => .of_same (listBody_st p start s)
  case time p => exact s.runCommand_work (body := fun s => ⟨s, .ok, .now s.now⟩) fun _ _ => .refl
  case status p => exact s.runCommand_work (body := fun s => ⟨s, .ok, .status s.statusView⟩) fun _ _ => .refl
  case ident p => exact s.runCommand_work (body := fun s => ⟨s, .ok, .ident s.factory⟩) fun _ _ => .refl
  case mySlot p index => exact s.runCommand_whenAttached_work fun s _ _ => .of_same (mySlotBody_st p index s)
  case revoke p key target => exact s.runCommand_whenAttached_work fun s ready _ => revokeBody_work ready key target
  case eject p target => exact s.runCommand_whenAttached_work fun s ready _ => ejectBody_work ready target
  case restart p => exact s.runCommand_whenAttached_work fun s ready _ => restartBody_work ready
  case stageBegin p => exact s.runCommand_whenAttached_work fun s ready _ => stageBeginBody_work ready
  case stageSet p item index value =>
    exact s.runCommand_whenAttached_work fun s _ _ => stageSetBody_work item index value
  case stageRead p item index =>
    exact s.runCommand_whenAttached_work fun s _ _ =>
      State.withOpenImage_work fun img _ _ => .of_same (stageReadBody_st item index s img)
  case stageAbort p =>
    exact s.runCommand_whenAttached_work fun s _ _ =>
      State.withOpenImage_work fun img opened _ => .of_store (.abort opened)
  case commit p => exact s.runCommand_whenAttached_work fun s ready _ => commitBody_work ready
  case stageStatus p =>
    exact s.runCommand_whenAttached_work (body := fun s => ⟨s, .ok, .staging s.cfg.view⟩) fun _ _ _ => .refl
  case send p first rest => exact ⟨_, rfl, s.changePins_work .send p (first :: rest)⟩
  case fetch p first rest => exact ⟨_, rfl, s.changePins_work .fetch p (first :: rest)⟩
  case poll p first rest => exact ⟨_, rfl, s.changePins_work .poll p (first :: rest)⟩
  case unrecognisedKindByte p first rest => exact ⟨_, rfl, s.changePins_work .unrecognised p (first :: rest)⟩
  case tick => exact absurd rfl notTick
  case leaseExpiry p key => exact ifReady _ fun ready => Work.refl.expireLease ready p key
  case waitExpiry p key => exact ifReady _ fun ready => Work.refl.expireWait ready p key
  case guardDeadline ch => exact ifReady _ fun ready => Work.refl.expireGuard ready ch
  case ginhChange ch level => exact exec_ginhChange_work ch level s
  case reservedHeadPass => exact exec_reservedHeadPass_work s
  case tokenFaultWithdrawal => exact exec_tokenFaultWithdrawal_work s
  case rowEraseDone => exact exec_rowEraseDone_work s
  case rowWriteDone => exact exec_rowWriteDone_work s
  case rowVerifyEnd matched => exact exec_rowVerifyEnd_work matched s
  case supplyLowSet => exact exec_supplyLowSet_work s
  case supplyLowClear => exact exec_supplyLowClear_work s
  all_goals exact absurd rfl boundary

/-! ### The tick -/

/-- The events of a tick that are due are taken by work alone, up to a RESTART hold that ends (R35, R190). -/
inductive DuesTaken (s : State) : State → Prop
  | work {t} (work : Work s ∅ t) : DuesTaken s t
  | restart {v} (work : Work s ∅ v) (runs : v.hold ≠ .none) : DuesTaken s v.endHold

theorem State.mem_dueEvents_holdEnd {s : State} : DueEvent.holdEnd ∈ s.dueEvents → s.hold = .due := by
  intro mem
  unfold State.dueEvents at mem
  rw [List.mem_append, List.mem_append] at mem
  rcases mem with (mem | mem) | mem
  · rw [List.mem_flatMap] at mem
    obtain ⟨r, -, mem⟩ := mem
    cases r with
    | none => cases mem
    | some r =>
      rcases List.mem_append.mp mem with mem | mem
      · obtain ⟨p, -, due⟩ := List.mem_filterMap.mp mem
        obtain ⟨h, -, due⟩ := Option.bind_eq_some_iff.mp due
        split at due <;> cases due
      · obtain ⟨w, -, due⟩ := List.mem_filterMap.mp mem
        split at due <;> cases due
  · obtain ⟨ch, -, due⟩ := List.mem_filterMap.mp mem
    split at due <;> cases due
  · split at mem
    · assumption
    · cases mem

theorem State.takeDue_taken {s t : State} (ready : s.device = .ready) (work : Work s ∅ t) {e : DueEvent}
    (due : e = .holdEnd → t.hold ≠ .none) : DuesTaken s (t.takeDue e) := by
  cases e with
  | lease p key => exact .work (work.expireLease ready p key)
  | wait p key => exact .work (work.expireWait ready p key)
  | guard ch => exact .work (work.expireGuard ready ch)
  | holdEnd => exact .restart work (due rfl)

@[simp] theorem State.endHold_device_ne_ready (s : State) : s.endHold.device ≠ .ready := by
  unfold State.endHold State.leaveReset
  dsimp only
  split
  · rw [(State.enterBoot_selected _).device]; simp
  · rw [State.beginReset_device]; simp

theorem State.takeAllDue_of_notReady {s : State} (notReady : s.device ≠ .ready) (n : Nat) :
    State.takeAllDue n s = s := by
  cases n with
  | zero => rfl
  | succ n => exact if_neg notReady

theorem getD_mem_cons {α : Type} (l : List α) (a : α) (n : Nat) : (a :: l).getD n a ∈ a :: l := by
  rw [List.getD_eq_getElem?_getD]
  cases found : (a :: l)[n]? with
  | none => simp
  | some b => simpa using List.mem_of_getElem? found

theorem State.takeAllDue_taken (n : Nat) {s t : State} (ready : s.device = .ready) (work : Work s ∅ t) :
    DuesTaken s (State.takeAllDue n t) := by
  induction n generalizing t with
  | zero => exact .work work
  | succ n ih =>
    unfold State.takeAllDue
    rw [if_pos (work.sameBoot.device.trans ready)]
    have holds : ∀ e ∈ t.dueEvents, e = .holdEnd → t.hold ≠ .none := by
      rintro e mem rfl
      rw [State.mem_dueEvents_holdEnd mem]
      simp
    split
    · exact .work work
    · rename_i e dues
      exact State.takeDue_taken ready work (holds e (by rw [dues]; simp))
    · rename_i e rest _ dues
      have drawn : Work s ∅ { t with free := t.free + 1 } := work.link (.own _ _ _ _)
      have chosen := getD_mem_cons rest e (Config.dueChoice t.free % (rest.length + 1))
      have taken := State.takeDue_taken ready drawn (holds _ (by rw [dues]; exact chosen))
      show DuesTaken s (State.takeAllDue n (State.takeDue _ _))
      generalize State.takeDue _ _ = u at taken ⊢
      cases taken with
      | work work' => exact ih work'
      | restart work' runs =>
        rw [State.takeAllDue_of_notReady (State.endHold_device_ne_ready _)]
        exact .restart work' runs

/-- What a tick does to a state in which the due events have been taken. -/
def State.tickOn (s : State) : State := State.advanceNow { s with restartTick := false }

/-- TICK: nothing but the end of a RESTART's tick outside READY; in READY the due events, and the tick itself
unless a RESTART hold has ended. -/
inductive Ticks (s : State) : State → Prop
  | idle (notReady : s.device ≠ .ready) : Ticks s { s with restartTick := false }
  | tick {u} (ready : s.device = .ready) (dues : u = State.takeAllDue s.dueEvents.length s) (work : Work s ∅ u) :
      Ticks s u.tickOn
  | restart {v} (ready : s.device = .ready) (work : Work s ∅ v) (runs : v.hold ≠ .none) :
      Ticks s { v.endHold with restartTick := false }

theorem exec_tick_ticks (s : State) : ∃ t, exec .tick s = .next t ∧ Ticks s t := by
  refine ⟨_, rfl, ?_⟩
  by_cases ready : s.device = .ready
  · dsimp only
    rw [if_pos ready]
    have taken := State.takeAllDue_taken s.dueEvents.length ready Work.refl
    generalize dues : State.takeAllDue s.dueEvents.length s = u at taken ⊢
    cases taken with
    | work work =>
      rw [if_pos (work.sameBoot.device.trans ready)]
      exact .tick ready dues.symm work
    | restart work runs =>
      rw [if_neg (State.endHold_device_ne_ready _)]
      exact .restart ready work runs
  · dsimp only
    rw [if_neg ready, if_neg ready]
    exact .idle ready

/-- What a row leads to. -/
def RowLeads (s t : State) : Prop := Runs s t ∨ Ticks s t

theorem exec_leads (c : Instr) (s : State) : ∃ t, exec c s = .next t ∧ RowLeads s t := by
  by_cases tick : c = .tick
  · obtain ⟨t, row, ticks⟩ := exec_tick_ticks s
    exact ⟨t, tick ▸ row, Or.inr ticks⟩
  · obtain ⟨t, row, runs⟩ := exec_runs c s tick
    exact ⟨t, row, Or.inl runs⟩

theorem runs_of_exec {c : Instr} {s t : State} (row : exec c s = .next t) (notTick : c ≠ .tick) : Runs s t := by
  obtain ⟨u, row', runs⟩ := exec_runs c s notTick
  cases row.symm.trans row'
  exact runs

theorem leads_of_exec {c : Instr} {s t : State} (row : exec c s = .next t) : RowLeads s t := by
  obtain ⟨u, row', leads⟩ := exec_leads c s
  cases row.symm.trans row'
  exact leads

theorem ticks_of_exec {s t : State} (row : exec .tick s = .next t) : Ticks s t := by
  obtain ⟨u, row', ticks⟩ := exec_tick_ticks s
  cases row.symm.trans row'
  exact ticks

end Sys2Proof.Machine
end

section
/-! What the changes of the claim engine leave, move by move: the token unit and the store, the staging, the
channels, and where each holding, waiter entry and guard deadline comes from. -/

namespace Sys2Proof.Machine

/-! ### Fields after the moves that no earlier lemma reads -/

section
variable (s : State) (p : Port) (pl : Place) (mode : Mode) (lease wait : Half)

theorem State.grantAtOnce_record (j : RecIx) : (s.grantAtOnce p pl mode lease).st.record j =
    if j = pl.index then
      some (pl.record.setHolder p (some ⟨mode, s.tok.G, s.now + lease.setWidth 32, pl.slot⟩))
    else s.record j :=
  (State.reportStart_record _ _ _ j).trans (s.addHolding_record _ _ _ _ _ _ j)

theorem State.grantAtOnce_slot (q : Port) (k : SlotIx) : (s.grantAtOnce p pl mode lease).st.slot q k =
    if q = p ∧ k = pl.slot then .holding pl.record.key mode s.tok.G (s.now + lease.setWidth 32)
    else s.slot q k :=
  (State.reportStart_slot _ _ _ q k).trans (s.addHolding_slot _ _ _ _ _ _ q k)

theorem State.grantAtOnce_port (q : Port) : (s.grantAtOnce p pl mode lease).st.port q = s.port q :=
  (State.reportStart_port _ _ _ q).trans (s.addHolding_port _ _ _ _ _ _ q)

theorem State.grantAtOnce_chan (gate : s.gateOpen pl.record.key mode = true) (ch : Channel) :
    (s.grantAtOnce p pl mode lease).st.chan ch =
      if mode = .exclusive ∧ s.boundChannel pl.record.key = some ch then
        { s.chan ch with state := if (s.chan ch).ginh then .heldLow else .high }
      else s.chan ch :=
  State.reportStart_chan_of_admissible gate (s.addHolding_chan _ _ _ _ _ _)
    (s.addHolding_boundChannel _ _ _ _ _ _ _) ch

theorem State.grantAtOnce_drawn : (s.grantAtOnce p pl mode lease).st.tok = s.drawToken.tok ∧
    (s.grantAtOnce p pl mode lease).st.store = s.drawToken.store :=
  ⟨State.reportStart_tok _ _ _, State.reportStart_store _ _ _⟩

/-- The entry that an ACQUIRE queues (R23). -/
def State.newEntry : Waiter :=
  ⟨p, mode, lease, s.now + wait.setWidth 32,
    if pl.record.waiters.isEmpty && pl.record.compatible mode then .reserved else .queued, pl.slot⟩

theorem State.enqueue_eq : ∃ demand, (s.enqueue p pl mode lease wait).st =
    ((({ s with tok := { s.tok with demand := demand } } : State).setRecord pl.index
      (some { pl.record with waiters := pl.record.waiters ++ [s.newEntry p pl mode lease wait] })).setSlot p pl.slot
        ((s.newEntry p pl mode lease wait).slotState pl.record.key)) := by
  unfold State.enqueue State.newEntry
  dsimp only
  split
  · exact ⟨_, by rw [State.noteDemand_eq]; rfl⟩
  · exact ⟨s.tok.demand, rfl⟩

theorem State.enqueue_record (j : RecIx) : (s.enqueue p pl mode lease wait).st.record j =
    if j = pl.index then
      some { pl.record with waiters := pl.record.waiters ++ [s.newEntry p pl mode lease wait] }
    else s.record j := by
  obtain ⟨demand, same⟩ := s.enqueue_eq p pl mode lease wait
  rw [same, State.setSlot_record, State.record_setRecord]
  rfl

theorem State.enqueue_slot (q : Port) (k : SlotIx) : (s.enqueue p pl mode lease wait).st.slot q k =
    if q = p ∧ k = pl.slot then (s.newEntry p pl mode lease wait).slotState pl.record.key else s.slot q k := by
  obtain ⟨demand, same⟩ := s.enqueue_eq p pl mode lease wait
  rw [same, State.slot_setSlot]
  rfl

theorem State.enqueue_port (q : Port) : (s.enqueue p pl mode lease wait).st.port q = s.port q := by
  obtain ⟨demand, same⟩ := s.enqueue_eq p pl mode lease wait
  rw [same]; rfl

theorem State.enqueue_chan (ch : Channel) : (s.enqueue p pl mode lease wait).st.chan ch = s.chan ch := by
  obtain ⟨demand, same⟩ := s.enqueue_eq p pl mode lease wait
  rw [same]; rfl

end

section
variable {s : State} {i : RecIx} {r : Record} {w : Waiter} {rest : List Waiter}

/-- A head at which a pass stops, once its mode is compatible: RESERVED, with its slot (R14). -/
theorem State.markReserved_slot (accounted : w.state = .reserved → s.slot w.port w.slot = w.slotState r.key)
    (q : Port) (k : SlotIx) : (s.markReserved i r w rest).slot q k =
      if q = w.port ∧ k = w.slot ∧ r.compatible w.mode = true then
        ({ w with state := .reserved } : Waiter).slotState r.key
      else s.slot q k := by
  unfold State.markReserved
  cases compatible : r.compatible w.mode with
  | false => simp
  | true =>
    rw [if_pos rfl]
    dsimp only
    cases state : w.state with
    | queued =>
      dsimp only
      rw [State.slot_setSlot, State.setRecord_slot, s.noteDemand_same.slot]
      simp [Waiter.slotState]
    | reserved =>
      dsimp only
      rw [s.noteDemand_same.slot]
      split
      · rename_i here
        obtain ⟨rfl, rfl, -⟩ := here
        rw [accounted state, Waiter.slotState, Waiter.slotState, state]
      · rfl

theorem State.markReserved_port (q : Port) : (s.markReserved i r w rest).port q = s.port q := by
  unfold State.markReserved
  split
  · dsimp only
    split <;> exact s.noteDemand_same.port q
  · rfl

theorem State.markReserved_store : (s.markReserved i r w rest).store = s.store := by
  unfold State.markReserved
  rw [State.noteDemand_eq]
  split
  · dsimp only
    split <;> rfl
  · rfl

end

/-! ### The token unit and the store -/

/-- The token unit and the store behind a draw of a token that is available. -/
def Drawn (s t : State) : Prop :=
  t.tok = s.drawToken.tok ∧ t.store = s.drawToken.store ∧ s.tok.available = true

theorem State.grantHead_drawn {s : State} {i : RecIx} {r : Record} {w : Waiter} (rest : List Waiter)
    (admissible : s.admissible r w.mode = true) : Drawn s (s.grantHead i r w rest) :=
  ⟨State.reportStart_tok _ _ _, State.reportStart_store _ _ _, ((s.admissible_iff r w.mode).mp admissible).2.2⟩

theorem State.grantAtOnce_drawn_of_admissible {s : State} {p : Port} {pl : Place} {mode : Mode} (lease : Half)
    (admissible : s.admissible pl.record mode = true) : Drawn s (s.grantAtOnce p pl mode lease).st := by
  obtain ⟨tok, store⟩ := s.grantAtOnce_drawn p pl mode lease
  exact ⟨tok, store, ((s.admissible_iff pl.record mode).mp admissible).2.2⟩

theorem Drawn.G {s t : State} (drawn : Drawn s t) : t.tok.G = s.tok.G + 1#32 := by
  obtain ⟨tok, -, -⟩ := drawn
  rw [tok, s.drawToken_same.2]

/-- A grant draws a token that is available; every other move leaves the token unit but for its demand flag, and
the store. -/
theorem ClaimMove.token {D E : Set RecIx} {s t : State} (move : ClaimMove D E s t) :
    Drawn s t ∨ t.store = s.store ∧ ∃ demand, t.tok = { s.tok with demand := demand } := by
  have demands : ∀ u : State, u.tok = s.tok ∨ u.tok = s.noteDemand.tok →
      ∃ demand, u.tok = { s.tok with demand := demand } := by
    rintro u (tok | tok)
    · exact ⟨s.tok.demand, tok⟩
    · exact ⟨_, by rw [tok, State.noteDemand_eq]⟩
  have fixed : ∀ {u : State}, u.store = s.store → u.tok = s.tok → Drawn s u ∨
      u.store = s.store ∧ ∃ demand, u.tok = { s.tok with demand := demand } :=
    fun store tok => Or.inr ⟨store, s.tok.demand, tok⟩
  cases move
  case grantHead i r w rest waits stands admissible =>
    exact Or.inl (State.grantHead_drawn rest admissible)
  case markReserved i r w rest waits stands blocked =>
    exact Or.inr ⟨State.markReserved_store, demands _ (s.markReserved_tok i r w rest)⟩
  case retire i => unfold State.retire; split <;> exact fixed rfl rfl
  case endHolding cause held stands =>
    unfold State.endHolding
    cases cause with
    | none => exact fixed (State.reportEnd_store _ _ _) (State.reportEnd_tok _ _ _)
    | some kind => exact fixed (State.reportEnd_store _ _ _) (State.reportEnd_tok _ _ _)
  case dropWaiter cause waiting stands =>
    unfold State.dropWaiter
    cases cause <;> exact fixed rfl rfl
  case grantAtOnce p pl mode lease noWaiters fits admissible leaseFits =>
    exact Or.inl (State.grantAtOnce_drawn_of_admissible lease admissible)
  case enqueue p pl mode lease wait waits fits leaseFits waitFits =>
    obtain ⟨demand, same⟩ := s.enqueue_eq p pl mode lease wait
    exact Or.inr ⟨by rw [same]; rfl, demand, by rw [same]; rfl⟩
  case noteDemand => exact Or.inr ⟨by rw [State.noteDemand_eq], demands _ (Or.inr rfl)⟩
  case moveLease => exact fixed rfl rfl
  case acknowledge p n rest oldest =>
    unfold State.acknowledge State.settleAcknowledged
    split
    case h_1 => split <;> exact fixed rfl rfl
    all_goals exact fixed rfl rfl
  case tearDown p =>
    rw [(s.tearDownSteps_torn p).only]
    exact fixed rfl rfl
  case attach => exact fixed rfl rfl
  case detach => exact fixed rfl rfl
  case openGate => exact fixed rfl rfl

theorem ClaimMove.supply {D E : Set RecIx} {s t : State} (move : ClaimMove D E s t) : t.supply = s.supply := by
  cases move
  case grantHead => exact (State.grantHead_frame _ _ _ _ _).supply
  case markReserved => exact (State.markReserved_frame _ _ _ _ _).supply
  case retire i => exact (s.retire_frame i).supply
  case endHolding => exact (State.endHolding_frame _ _ _ _ _ _).supply
  case dropWaiter => exact (State.dropWaiter_frame _ _ _ _ _).supply
  case grantAtOnce => exact (State.grantAtOnce_frame _ _ _ _ _).supply
  case enqueue => exact (State.enqueue_frame _ _ _ _ _ _).supply
  case noteDemand => exact s.noteDemand_frame.supply
  case moveLease => rfl
  case acknowledge => exact ((State.modPort_queue_frame _ _ _).trans (State.settleAcknowledged_frame _ _ _)).supply
  case tearDown p => exact (s.tearDownSteps_frame p).supply
  case attach => rfl
  case detach => rfl
  case openGate => rfl

/-- The staging changes only in a teardown. -/
theorem ClaimMove.cfg {D E : Set RecIx} {s t : State} (move : ClaimMove D E s t) :
    t.cfg = s.cfg ∨ t.tok = s.tok ∧ ∃ p, t.cfg = s.cfg.tearStaging p := by
  cases move
  case tearDown p => exact Or.inr ⟨by rw [(s.tearDownSteps_torn p).only], p, (s.tearDownSteps_frame p).cfg⟩
  case grantHead => exact Or.inl (State.grantHead_frame _ _ _ _ _).cfg
  case markReserved => exact Or.inl (State.markReserved_frame _ _ _ _ _).cfg
  case retire i => exact Or.inl (s.retire_frame i).cfg
  case endHolding => exact Or.inl (State.endHolding_frame _ _ _ _ _ _).cfg
  case dropWaiter => exact Or.inl (State.dropWaiter_frame _ _ _ _ _).cfg
  case grantAtOnce => exact Or.inl (State.grantAtOnce_frame _ _ _ _ _).cfg
  case enqueue => exact Or.inl (State.enqueue_frame _ _ _ _ _ _).cfg
  case noteDemand => exact Or.inl s.noteDemand_frame.cfg
  case moveLease => exact Or.inl rfl
  case acknowledge =>
    exact Or.inl ((State.modPort_queue_frame _ _ _).trans (State.settleAcknowledged_frame _ _ _)).cfg
  case attach => exact Or.inl rfl
  case detach => exact Or.inl rfl
  case openGate => exact Or.inl rfl

/-! ### The channels -/

/-- What a move of the claim engine makes of a channel: a start report takes it from IDLE, an end report ends it,
a guard deadline that is reached opens it, or it stays. -/
inductive ChannelMoved (s t : State) (ch : Channel) : Prop
  | same (same : t.chan ch = s.chan ch)
  | started (idle : (s.chan ch).state = .idle)
      (started : t.chan ch = { s.chan ch with state := if (s.chan ch).ginh then .heldLow else .high })
  | ended (ended : t.chan ch = (s.chan ch).ended s.now)
  | opened (guard : (s.chan ch).state = .guard s.now) (opened : t.chan ch = { s.chan ch with state := .idle })

theorem channelMoved_of_start {s t : State} {key : Word} {mode : Mode} {ch : Channel}
    (gate : s.gateOpen key mode = true)
    (chan : t.chan ch = if mode = .exclusive ∧ s.boundChannel key = some ch then
      { s.chan ch with state := if (s.chan ch).ginh then .heldLow else .high } else s.chan ch) :
    ChannelMoved s t ch := by
  split at chan
  · rename_i starts
    exact .started ((s.gateOpen_iff key mode).mp gate starts.1 ch starts.2) chan
  · exact .same chan

theorem ClaimMove.channel {D E : Set RecIx} {s t : State} (move : ClaimMove D E s t) (ch : Channel) :
    ChannelMoved s t ch := by
  cases move
  case grantHead i r w rest waits stands admissible =>
    have gate := ((s.admissible_iff r w.mode).mp admissible).2.1
    exact channelMoved_of_start gate (s.grantHead_chan i r w rest gate ch)
  case markReserved => exact .same (State.markReserved_chan _ _ _ _ _ ch)
  case retire i => exact .same ((s.retire_same i).2.2 ch)
  case endHolding i r p h cause held stands =>
    have chan := s.endHolding_chan i r p h cause ch
    split at chan
    · exact .ended chan
    · exact .same chan
  case dropWaiter => exact .same (State.dropWaiter_chan _ _ _ _ _ ch)
  case grantAtOnce p pl mode lease noWaiters fits admissible leaseFits =>
    have gate := ((s.admissible_iff pl.record mode).mp admissible).2.1
    exact channelMoved_of_start gate (s.grantAtOnce_chan p pl mode lease gate ch)
  case enqueue => exact .same (State.enqueue_chan _ _ _ _ _ _ ch)
  case noteDemand => exact .same (s.noteDemand_same.chan ch)
  case moveLease => exact .same rfl
  case acknowledge p n rest oldest =>
    unfold State.acknowledge State.settleAcknowledged
    split
    case h_1 => split <;> exact .same rfl
    all_goals exact .same rfl
  case tearDown p =>
    have torn := s.tearDownSteps_torn p
    by_cases ends : ∃ i, s.tearsExclusive p i ch
    · exact .ended (torn.ended ch ends)
    · exact .same (torn.chan ch ends)
  case attach => exact .same rfl
  case detach => exact .same rfl
  case openGate d due =>
    by_cases here : ch = d
    · subst here
      exact .opened due (by rw [State.chan_setChan, if_pos rfl])
    · exact .same (by rw [State.chan_setChan, if_neg here])

theorem GateChannel.ended_of_guard {c : GateChannel} {deadline now : Word} (guard : c.state = .guard deadline) :
    c.ended now = c := by simp [GateChannel.ended, guard]

/-- A channel in GUARD stays there until its deadline is reached. -/
theorem ChannelMoved.guard_kept {s t : State} {ch : Channel} (moved : ChannelMoved s t ch) {deadline : Word}
    (guard : (s.chan ch).state = .guard deadline) (ahead : deadline ≠ s.now) :
    (t.chan ch).state = .guard deadline := by
  cases moved with
  | same same => rw [same, guard]
  | started idle => rw [idle] at guard; cases guard
  | ended ended => rw [ended, GateChannel.ended_of_guard guard, guard]
  | opened due => rw [due] at guard; cases guard; exact absurd rfl ahead

/-- A guard deadline stood before, or is formed from now and the channel's guard. -/
theorem ChannelMoved.guard_from {s t : State} {ch : Channel} (moved : ChannelMoved s t ch) {deadline : Word}
    (guard : (t.chan ch).state = .guard deadline) : (s.chan ch).state = .guard deadline ∨
      (s.chan ch).guard ≠ 0#16 ∧ deadline = s.now + (s.chan ch).guard.setWidth 32 := by
  cases moved with
  | same same => rw [same] at guard; exact Or.inl guard
  | started _ started =>
    rw [started] at guard
    dsimp only at guard
    split at guard <;> cases guard
  | ended ended =>
    rw [ended, GateChannel.ended] at guard
    split at guard
    · dsimp only at guard
      split at guard
      · cases guard
      · rename_i nonzero; cases guard; exact Or.inr ⟨nonzero, rfl⟩
    · exact Or.inl guard
  | opened _ opened => rw [opened] at guard; cases guard

/-! ### Where a claim comes from -/

/-- A lease from which a grant may form a deadline: one that its port may ask for now, or one stored in an
entry. -/
def State.grantable (s : State) (p : Port) (lease : Half) : Prop :=
  s.leaseFits p lease ∨ ∃ i r, s.record i = some r ∧ ∃ w ∈ r.waiters, w.port = p ∧ w.lease = lease

/-- A holding of a state, as the state before has it, with its token, its deadline kept or moved; or with the
token that was next. -/
def State.holdingFrom (s t : State) (i : RecIx) (key : Word) (p : Port) (h : Holding) : Prop :=
  (∃ r h', s.record i = some r ∧ r.key = key ∧ r.holder p = some h' ∧ h'.token = h.token ∧
      (h'.deadline = h.deadline ∨ ∃ lease, s.leaseFits p lease ∧ h.deadline = s.now + lease.setWidth 32)) ∨
    Drawn s t ∧ h.token = s.tok.G ∧
      ∃ lease, s.grantable p lease ∧ h.deadline = s.now + lease.setWidth 32

/-- A waiter entry of a state, as the state before has it; or as an ACQUIRE queues it. -/
def State.entryFrom (s : State) (i : RecIx) (key : Word) (w : Waiter) : Prop :=
  (∃ r, s.record i = some r ∧ r.key = key ∧ ∃ w' ∈ r.waiters, w'.port = w.port ∧ w'.lease = w.lease ∧
      (w.state = .queued → w'.state = .queued ∧ w'.deadline = w.deadline)) ∨
    s.leaseFits w.port w.lease ∧ ∃ wait : Half, wait ≠ 0#16 ∧ wait ≤ (s.settings w.port).maxWait ∧
      w.deadline = s.now + wait.setWidth 32

section
variable {s t : State} {i : RecIx} {r : Record} {p : Port}

theorem State.holdingFrom_of_kept {h : Holding} (stands : s.record i = some r) (held : r.holder p = some h) :
    s.holdingFrom t i r.key p h := Or.inl ⟨r, h, stands, rfl, held, rfl, Or.inl rfl⟩

theorem State.entryFrom_of_kept {w : Waiter} (stands : s.record i = some r) (mem : w ∈ r.waiters) :
    s.entryFrom i r.key w := Or.inl ⟨r, stands, rfl, w, mem, rfl, rfl, fun queued => ⟨queued, rfl⟩⟩

end

/-- The records of a state, each claim of which the state before accounts for. -/
def State.claimsFrom (s t : State) : Prop := ∀ i r, t.record i = some r →
  (∀ p h, r.holder p = some h → s.holdingFrom t i r.key p h) ∧ ∀ w ∈ r.waiters, s.entryFrom i r.key w

theorem State.claimsFrom_of_records {s t : State} (records : ∀ i, t.record i = s.record i) : s.claimsFrom t := by
  intro i r stands
  rw [records] at stands
  exact ⟨fun p h held => State.holdingFrom_of_kept stands held, fun w mem => State.entryFrom_of_kept stands mem⟩

/-- One index changed: its record is to be accounted for. -/
theorem State.claimsFrom_of_record {s t : State} {i : RecIx} {r' : Record}
    (record : ∀ j, t.record j = if j = i then some r' else s.record j)
    (holdings : ∀ p h, r'.holder p = some h → s.holdingFrom t i r'.key p h)
    (entries : ∀ w ∈ r'.waiters, s.entryFrom i r'.key w) : s.claimsFrom t := by
  intro j r stands
  rw [record] at stands
  split at stands
  · subst_vars
    cases stands
    exact ⟨holdings, entries⟩
  · exact ⟨fun p h held => State.holdingFrom_of_kept stands held, fun w mem => State.entryFrom_of_kept stands mem⟩

/-- The claims of a place's record stood before. -/
theorem Place.Fits.claims {s : State} (t : State) {p : Port} {pl : Place} (fits : pl.Fits s p) :
    (∀ q h, pl.record.holder q = some h → s.holdingFrom t pl.index pl.record.key q h) ∧
      ∀ w ∈ pl.record.waiters, s.entryFrom pl.index pl.record.key w := by
  rcases fits.stands with stands | ⟨-, fresh, -⟩
  · exact ⟨fun q h held => State.holdingFrom_of_kept stands held, fun w mem => State.entryFrom_of_kept stands mem⟩
  · rw [fresh]
    refine ⟨fun q h held => ?_, fun w mem => ?_⟩
    · rw [Record.holder_fresh] at held; cases held
    · rw [Record.waiters_fresh] at mem; cases mem

theorem ClaimMove.claimsFrom {D E : Set RecIx} {s t : State} (move : ClaimMove D E s t) : s.claimsFrom t := by
  cases move
  case grantHead i r w rest waits stands admissible =>
    have drawn := State.grantHead_drawn (i := i) rest admissible
    refine State.claimsFrom_of_record (fun j => s.grantHead_record i j r w rest) (fun p h held => ?_) fun v mem => ?_
    · rw [Record.holder_granted] at held
      split at held
      · rename_i mine
        cases held
        exact Or.inr ⟨drawn, rfl, w.lease, Or.inr ⟨i, r, stands, w, by rw [waits]; simp, mine.symm, rfl⟩, rfl⟩
      · exact State.holdingFrom_of_kept (r := r) stands held
    · have behind : v ∈ rest := mem
      exact State.entryFrom_of_kept (r := r) stands (by rw [waits]; exact List.mem_cons_of_mem _ behind)
  case markReserved i r w rest waits stands blocked =>
    intro j r' stands'
    rw [State.markReserved_record stands waits] at stands'
    split at stands'
    · rename_i here
      obtain ⟨rfl, -⟩ := here
      cases stands'
      refine ⟨fun p h held => State.holdingFrom_of_kept (r := r) stands held, fun v mem => ?_⟩
      rcases List.mem_cons.mp mem with rfl | mem
      · exact Or.inl ⟨r, stands, rfl, w, by rw [waits]; simp, rfl, rfl, fun queued => by cases queued⟩
      · exact State.entryFrom_of_kept (r := r) stands (by rw [waits]; exact List.mem_cons_of_mem _ mem)
    · exact ⟨fun p h held => State.holdingFrom_of_kept stands' held,
        fun v mem => State.entryFrom_of_kept stands' mem⟩
  case retire i =>
    intro j r stands
    by_cases here : j = i
    · subst here
      obtain ⟨stands, -⟩ := State.retire_record_some stands
      exact ⟨fun p h held => State.holdingFrom_of_kept stands held, fun v mem => State.entryFrom_of_kept stands mem⟩
    · rw [s.retire_record_ne i j here] at stands
      exact ⟨fun p h held => State.holdingFrom_of_kept stands held, fun v mem => State.entryFrom_of_kept stands mem⟩
  case endHolding i r p h cause held stands =>
    refine State.claimsFrom_of_record (fun j => s.endHolding_record i j r p h cause) (fun q h' held' => ?_)
      fun v mem => State.entryFrom_of_kept (r := r) stands mem
    rw [Record.holder_setHolder] at held'
    split at held'
    · cases held'
    · exact State.holdingFrom_of_kept (r := r) stands held'
  case dropWaiter i r w cause waiting stands =>
    refine State.claimsFrom_of_record (fun j => s.dropWaiter_record i j r w cause)
      (fun q h' held' => State.holdingFrom_of_kept (r := r) stands held') fun v mem => ?_
    exact State.entryFrom_of_kept (r := r) stands (List.mem_of_mem_filter mem)
  case grantAtOnce p pl mode lease noWaiters fits admissible leaseFits =>
    have drawn := State.grantAtOnce_drawn_of_admissible (p := p) lease admissible
    refine State.claimsFrom_of_record (s.grantAtOnce_record p pl mode lease) (fun q h held => ?_)
      fun w mem => (fits.claims s).2 w mem
    rw [Record.holder_setHolder] at held
    split at held
    · rename_i mine
      cases held
      exact Or.inr ⟨drawn, rfl, lease, Or.inl (mine ▸ leaseFits), rfl⟩
    · exact (fits.claims _).1 q h held
  case enqueue p pl mode lease wait waits fits leaseFits waitFits =>
    refine State.claimsFrom_of_record (s.enqueue_record p pl mode lease wait) (fits.claims _).1 fun w mem => ?_
    rcases List.mem_append.mp mem with mem | mem
    · exact (fits.claims s).2 w mem
    · rw [List.mem_singleton] at mem
      subst mem
      exact Or.inr ⟨leaseFits, wait, waits, waitFits, rfl⟩
  case noteDemand => exact State.claimsFrom_of_records s.noteDemand_same.record
  case moveLease i r p h lease held stands leaseFits =>
    have record : ∀ j, (s.moveLease i r p h (s.now + lease.setWidth 32)).record j = if j = i then
        some (r.setHolder p (some { h with deadline := s.now + lease.setWidth 32 })) else s.record j :=
      fun j => s.record_setRecord i j _
    refine State.claimsFrom_of_record record (fun q h' held' => ?_)
      fun w mem => State.entryFrom_of_kept (r := r) stands mem
    rw [Record.holder_setHolder] at held'
    split at held'
    · rename_i mine
      cases held'
      exact Or.inl ⟨r, h, stands, rfl, mine ▸ held, rfl, Or.inr ⟨lease, mine ▸ leaseFits, rfl⟩⟩
    · exact State.holdingFrom_of_kept (r := r) stands held'
  case acknowledge p n rest oldest =>
    refine State.claimsFrom_of_records fun i => ?_
    unfold State.acknowledge State.settleAcknowledged
    split
    case h_1 => split <;> rfl
    all_goals rfl
  case tearDown p =>
    intro i r stands
    rw [(s.tearDownSteps_torn p).record, Option.map_eq_some_iff] at stands
    obtain ⟨r, stands, rfl⟩ := stands
    refine ⟨fun q h held => ?_, fun w mem => ?_⟩
    · rw [Record.holder_without] at held
      split at held
      · cases held
      · exact State.holdingFrom_of_kept (r := r) stands held
    · rw [Record.waiters_without] at mem
      exact State.entryFrom_of_kept (r := r) stands (List.mem_of_mem_filter mem)
  case attach => exact State.claimsFrom_of_records fun _ => rfl
  case detach => exact State.claimsFrom_of_records fun _ => rfl
  case openGate => exact State.claimsFrom_of_records fun _ => rfl

/-! ### What the other moves leave -/

/-- The claim state: what the changes of the store and of the link leave alone. -/
structure ClaimsSame (s t : State) : Prop where
  table : t.table = s.table
  slots : t.slots = s.slots
  queue : ∀ p, (t.port p).notices = (s.port p).notices ∧ (t.port p).seq = (s.port p).seq ∧
    (t.port p).attached = (s.port p).attached

theorem ClaimsSame.of_ports {s t : State} (table : t.table = s.table) (slots : t.slots = s.slots)
    (ports : t.ports = s.ports) : ClaimsSame s t :=
  ⟨table, slots, fun p => by rw [State.port, State.port, ports]; exact ⟨rfl, rfl, rfl⟩⟩

/-- What a change of the store leaves of the rest. -/
structure StoreOnly (s t : State) : Prop where
  table : t.table = s.table
  slots : t.slots = s.slots
  ports : t.ports = s.ports
  chans : t.chans = s.chans
  G : t.tok.G = s.tok.G
  bootFloor : t.tok.bootFloor = s.tok.bootFloor
  hold : t.hold = s.hold

theorem StoreOnly.refl (s : State) : StoreOnly s s := ⟨rfl, rfl, rfl, rfl, rfl, rfl, rfl⟩

theorem StoreOnly.trans {s t u : State} (h : StoreOnly s t) (k : StoreOnly t u) : StoreOnly s u :=
  ⟨k.table.trans h.table, k.slots.trans h.slots, k.ports.trans h.ports, k.chans.trans h.chans, k.G.trans h.G,
    k.bootFloor.trans h.bootFloor, k.hold.trans h.hold⟩

theorem State.kickEngine_only (s : State) : StoreOnly s s.kickEngine := by
  obtain ⟨engine, advance, commit, cfg, same, -⟩ := s.kickEngine_eq
  rw [same]
  exact ⟨rfl, rfl, rfl, rfl, rfl, rfl, rfl⟩

theorem State.lowWaterTest_only (s : State) : StoreOnly s s.lowWaterTest := by
  obtain ⟨same, G⟩ := s.lowWaterTest_same
  exact ⟨same.table, same.slots, same.ports, same.chans, G, s.lowWaterTest_frame.bootFloor,
    s.lowWaterTest_frame.hold⟩

theorem State.rowSucceeded_only (s : State) (req : RowRequest) : StoreOnly s (s.rowSucceeded req) := by
  unfold State.rowSucceeded
  split
  · refine StoreOnly.trans ?_ (State.lowWaterTest_only _)
    exact ⟨rfl, rfl, rfl, rfl, rfl, rfl, rfl⟩
  · unfold State.handSecondRow
    split <;> exact ⟨rfl, rfl, rfl, rfl, rfl, rfl, rfl⟩
  · exact ⟨rfl, rfl, rfl, rfl, rfl, rfl, rfl⟩

theorem State.rowFailed_only (s : State) (req : RowRequest) : StoreOnly s (s.rowFailed req) := by
  unfold State.rowFailed
  split <;> exact ⟨rfl, rfl, rfl, rfl, rfl, rfl, rfl⟩

theorem StoreMove.only {s t : State} (move : StoreMove s t) : StoreOnly s t := by
  cases move
  case commit =>
    refine StoreOnly.trans ?_ (State.kickEngine_only _)
    exact ⟨rfl, rfl, rfl, rfl, rfl, rfl, rfl⟩
  case verified req _ _ =>
    refine StoreOnly.trans (StoreOnly.trans ?_ (State.rowSucceeded_only s.engineIdle req)) (State.kickEngine_only _)
    exact ⟨rfl, rfl, rfl, rfl, rfl, rfl, rfl⟩
  case failed req _ =>
    refine StoreOnly.trans (StoreOnly.trans ?_ (State.rowFailed_only (s.spoilRow req).engineIdle req))
      (State.kickEngine_only _)
    exact ⟨rfl, rfl, rfl, rfl, rfl, rfl, rfl⟩
  case lowClear =>
    refine StoreOnly.trans ?_ (State.kickEngine_only _)
    exact ⟨rfl, rfl, rfl, rfl, rfl, rfl, rfl⟩
  all_goals exact ⟨rfl, rfl, rfl, rfl, rfl, rfl, rfl⟩

/-! ### What a pin change leaves of its port -/

/-- What the link leaves of a port unit: the session, the queue. -/
def PortUnit.sameSession (u v : PortUnit) : Prop :=
  v.notices = u.notices ∧ v.seq = u.seq ∧ v.attached = u.attached ∧ v.session = u.session ∧
    v.sessionLost = u.sessionLost

theorem PortUnit.sameSession.refl (u : PortUnit) : u.sameSession u := ⟨rfl, rfl, rfl, rfl, rfl⟩

theorem PortUnit.decide_session (u : PortUnit) (frame : FrameReading) : u.sameSession (u.decide frame) := by
  have replayed : u.sameSession u.markReplayed := by
    unfold PortUnit.markReplayed
    split <;> exact .refl u
  unfold PortUnit.decide
  split
  · exact .refl u
  · split
    · exact .refl u
    · split
      · exact replayed
      · exact .refl u
  · split
    · exact .refl u
    · split
      · exact replayed
      · exact .refl u

theorem PortUnit.conclude_session (u : PortUnit) (p : Port) (kind : Option TransferKind) :
    u.sameSession (u.conclude p kind) := by
  unfold PortUnit.conclude
  split
  · exact u.decide_session _
  all_goals exact .refl u

theorem PortUnit.endTransfer_session (u : PortUnit) (device : DeviceState) (p : Port) :
    u.sameSession (u.endTransfer device p) := by
  unfold PortUnit.endTransfer
  dsimp only
  split
  · exact PortUnit.conclude_session { u with transfer := none, sdo := none } p _
  · exact .refl u

theorem PortUnit.takeByte_session (u : PortUnit) (t : Transfer) (b status : Byte) :
    u.sameSession (u.takeByte t b status) := by
  unfold PortUnit.takeByte
  split
  case h_2 =>
    unfold PortUnit.storeByte
    split <;> exact .refl u
  all_goals exact .refl u

theorem PortUnit.edge_session (u : PortUnit) (device : DeviceState) (p : Port) (n : Nat) (c : PinChange) :
    u.sameSession (u.edge device p n c) := by
  unfold PortUnit.edge
  split
  case h_1 =>
    unfold PortUnit.beginTransfer
    split <;> exact .refl u
  case h_2 => exact u.endTransfer_session device p
  case h_3 =>
    split
    · unfold PortUnit.shiftOut
      split <;> exact .refl u
    · unfold PortUnit.ignoreFall
      split <;> exact .refl u
  case h_4 =>
    split
    · unfold PortUnit.sample
      dsimp only
      split
      · exact PortUnit.takeByte_session _ _ _ _
      · exact .refl u
    · exact .refl u
  case h_5 => exact .refl u

theorem PortUnit.change_session (u : PortUnit) (device : DeviceState) (p : Port) (n : Nat) (c : PinChange) :
    u.sameSession (u.change device p n c) := by
  unfold PortUnit.change
  split
  · exact .refl u
  · dsimp only
    split
    · exact .refl u
    · exact PortUnit.edge_session _ _ _ _ _
    · exact PortUnit.edge_session _ _ _ _ _

theorem State.changePin_session (kind : TransferKind) (p : Port) (s : State) (c : PinChange) (q : Port) :
    (s.port q).sameSession ((State.changePin kind p s c).port q) := by
  unfold State.changePin
  rw [State.port_setPort]
  split
  · rename_i same
    rw [same]
    split
    · exact PortUnit.change_session _ _ _ _ _
    · exact .refl _
  · exact .refl _

/-- A change of the link leaves the claims, the token unit, the store and the configuration unit alone. -/
structure LinkOnly (s t : State) : Prop where
  table : t.table = s.table
  slots : t.slots = s.slots
  session : ∀ p, (s.port p).sameSession (t.port p)
  tok : t.tok = s.tok
  store : t.store = s.store
  cfg : t.cfg = s.cfg
  supply : t.supply = s.supply

theorem LinkMove.only {s t : State} (move : LinkMove s t) : LinkOnly s t := by
  cases move
  case pin kind p c => exact ⟨rfl, rfl, State.changePin_session kind p s c, rfl, rfl, rfl, rfl⟩
  case reply p tag c status fields ready =>
    refine ⟨rfl, rfl, fun q => ?_, rfl, rfl, rfl, rfl⟩
    rw [State.port_placeReply]
    split
    · rename_i same; rw [same]; exact .refl _
    · exact .refl _
  all_goals exact ⟨rfl, rfl, fun p => .refl _, rfl, rfl, rfl, rfl⟩

theorem LinkMove.claimsSame {s t : State} (move : LinkMove s t) : ClaimsSame s t :=
  ⟨move.only.table, move.only.slots, fun p => by
    obtain ⟨notices, seq, attached, -, -⟩ := move.only.session p
    exact ⟨notices, seq, attached⟩⟩

theorem StoreMove.claimsSame {s t : State} (move : StoreMove s t) : ClaimsSame s t :=
  .of_ports move.only.table move.only.slots move.only.ports

end Sys2Proof.Machine
end

section
/-! The boundaries of a boot for what they select and clear, whatever the supply does meanwhile; and the laws
that every row keeps, from the changes that make it up. -/

namespace Sys2Proof.Machine

/-! ### What the start of a reset leaves of the blocks that BOOT selects -/

/-- What a device reset leaves, with the placeholders of what BOOT selects afresh (log 14). -/
structure ResetBegun (s t : State) : Prop where
  cleared : ResetCleared s t
  tok : t.tok = ⟨0#32, 0#32, .advancing, none, false, 0#32⟩
  cfg : t.cfg = ConfigUnit.reset
  chan : ∀ ch, t.chan ch = ⟨0#32, 0#16, .unbound, s.ginhPin⟩

theorem State.beginReset_begun (s : State) (cause : ResetCause) : ResetBegun s (s.beginReset cause) := by
  obtain ⟨store, free, begun, -⟩ := s.beginReset_eq cause
  refine ⟨s.beginReset_cleared cause, by rw [begun]; rfl, by rw [begun]; rfl, fun ch => ?_⟩
  rw [begun]
  simp [State.chan, State.discardVolatile]

theorem ResetBegun.setSupply {s t : State} (begun : ResetBegun s t) (supply : SupplyMonitor) (tick : Bool) :
    ResetBegun s { t with supply := supply, restartTick := tick } :=
  ⟨begun.cleared.setSupply supply tick, begun.tok, begun.cfg, begun.chan⟩

/-- A change of the supply, the RST pin, the queue or the record of a RESTART's tick. The supply-low flag is
cleared in IN_RESET alone. -/
structure Outside (s t : State) : Prop where
  same : t = { s with
    supply := t.supply, rstLow := t.rstLow, restartTick := t.restartTick, pending := t.pending }
  low : t.supply.low = s.supply.low ∨ t.supply.low = true ∨ s.device = .inReset

/-- A boundary of a boot, for all but the device state: a change of the supply alone, a reset, the start of BOOT,
both in one event, or the end of BOOT. -/
inductive Bounds (s : State) : State → Prop
  | outside {t} (outside : Outside s t) : Bounds s t
  | reset {u t} (outside : Outside s u) (begun : ResetBegun u t) : Bounds s t
  | restart {u v t} (outside : Outside s u) (begun : ResetBegun u v) (selected : BootSelected v t) : Bounds s t
  | boot {u t} (inReset : s.device = .inReset) (outside : Outside s u) (selected : BootSelected u t) : Bounds s t
  | bootEnd (boot : s.device = .boot) : Bounds s s.endBoot

theorem State.leaveReset_bounds {s u : State} (outside : Outside s u) : Bounds s u.leaveReset := by
  unfold State.leaveReset
  split
  · rename_i leaves
    have device : u.device = s.device := by rw [outside.same]
    exact .boot (device ▸ leaves.1) outside u.enterBoot_selected
  · exact .outside outside

theorem Boundary.bounds {s t : State} (boundary : Boundary s t) : Bounds s t := by
  cases boundary
  case brownout =>
    exact .reset (u := { s with supply := s.supply.hold }) ⟨rfl, Or.inr (Or.inl rfl)⟩
      (State.beginReset_begun _ _)
  case sag => exact .outside ⟨rfl, Or.inr (Or.inl rfl)⟩
  case powerOff => exact .reset ⟨rfl, Or.inl rfl⟩ ((s.beginReset_begun _).setSupply _ _)
  case powerOffInReset inReset => exact .outside ⟨rfl, Or.inr (Or.inr inReset)⟩
  case powerOn =>
    exact .reset (u := { s with supply := s.supply.hold, restartTick := false }) ⟨rfl, Or.inr (Or.inl rfl)⟩
      (State.beginReset_begun _ _)
  case release => exact State.leaveReset_bounds ⟨rfl, Or.inl rfl⟩
  case rstLow => exact .reset (u := { s with rstLow := true }) ⟨rfl, Or.inl rfl⟩ (State.beginReset_begun _ _)
  case rstLowInReset => exact .outside ⟨rfl, Or.inl rfl⟩
  case rstHigh => exact State.leaveReset_bounds ⟨rfl, Or.inl rfl⟩
  case restart =>
    have begun := (State.beginReset_begun { s with restartTick := false } .restart).setSupply
      (State.beginReset { s with restartTick := false } .restart).supply true
    unfold State.endHold State.leaveReset
    dsimp only
    split
    · exact .restart (u := { s with restartTick := false }) ⟨rfl, Or.inl rfl⟩ begun (State.enterBoot_selected _)
    · exact .reset (u := { s with restartTick := false }) ⟨rfl, Or.inl rfl⟩ begun
  case bootEnd boot => exact .bootEnd boot

/-! ### The end of BOOT -/

theorem State.bootLowWaterTest_eq (s : State) : s.bootLowWaterTest = s ∨
    s.tok.state = .advancing ∧ s.tok.F ≠ maxWord ∧ s.bootLowWaterTest = s.requestAdvance := by
  unfold State.bootLowWaterTest
  split
  · rename_i test
    obtain ⟨advancing, low⟩ := test
    rw [TokenUnit.lowWater, Bool.and_eq_true] at low
    exact Or.inr ⟨advancing, by simpa using low.2, rfl⟩
  · exact Or.inl rfl

theorem State.bootLowWaterTest_sameBoot (s : State) : SameBoot s s.bootLowWaterTest := by
  rcases s.bootLowWaterTest_eq with same | ⟨-, -, same⟩
  · rw [same]; exact SameBoot.refl s
  · rw [same]; exact s.requestAdvance_frame.sameBoot

theorem State.bootLowWaterTest_only (s : State) : StoreOnly s s.bootLowWaterTest := by
  rcases s.bootLowWaterTest_eq with same | ⟨-, -, same⟩
  · rw [same]; exact StoreOnly.refl s
  · rw [same]
    obtain ⟨claims, G⟩ := s.requestAdvance_same
    exact ⟨claims.table, claims.slots, claims.ports, claims.chans, G, s.requestAdvance_frame.bootFloor,
      s.requestAdvance_frame.hold⟩

theorem State.endBoot_device (s : State) : s.endBoot.device = .ready :=
  (State.bootLowWaterTest_sameBoot { s with device := .ready, restartTick := false }).device

theorem State.endBoot_now (s : State) : s.endBoot.now = s.now :=
  (State.bootLowWaterTest_sameBoot { s with device := .ready, restartTick := false }).now

theorem State.endBoot_pending (s : State) : s.endBoot.pending = s.pending :=
  (State.bootLowWaterTest_sameBoot { s with device := .ready, restartTick := false }).pending

theorem State.endBoot_factoryRow (s : State) : s.endBoot.store.factoryRow = s.store.factoryRow :=
  (State.bootLowWaterTest_sameBoot { s with device := .ready, restartTick := false }).factoryRow

theorem State.endBoot_only (s : State) : StoreOnly s s.endBoot := by
  refine StoreOnly.trans ?_ (State.bootLowWaterTest_only { s with device := .ready, restartTick := false })
  exact ⟨rfl, rfl, rfl, rfl, rfl, rfl, rfl⟩

/-! ### An invariant of every row -/

/-- What every change keeps, every step keeps; TICK takes what is due first. -/
theorem step_keeps_dues {P : State → Prop} (move : ∀ {D E s t}, Move D E s t → P s → P t)
    (outside : ∀ {s t}, Outside s t → P s → P t) (reset : ∀ {s t}, ResetBegun s t → P s → P t)
    (boot : ∀ {s t}, s.device = .inReset → BootSelected s t → P s → P t)
    (bootEnd : ∀ {s}, s.device = .boot → P s → P s.endBoot)
    (tick : ∀ {s u}, s.device = .ready → P s → u = State.takeAllDue s.dueEvents.length s → Work s ∅ u → P u →
      P u.tickOn)
    {s t : State} (row : step s = .next t) (start : P s) : P t := by
  have bounds : ∀ {s t}, Bounds s t → P s → P t := by
    intro s t bounds start
    cases bounds with
    | outside change => exact outside change start
    | reset change begun => exact reset begun (outside change start)
    | restart change begun selected =>
      exact boot begun.cleared.device selected (reset begun (outside change start))
    | boot inReset change selected =>
      exact boot (by rw [change.same]; exact inReset) selected (outside change start)
    | bootEnd isBoot => exact bootEnd isBoot start
  have tickOver : ∀ {s}, P s → P { s with restartTick := false } := fun start => outside ⟨rfl, Or.inl rfl⟩ start
  unfold step at row
  split at row
  · cases row; exact start
  · rename_i c rest queue
    have popped : P { s with pending := rest } := outside ⟨rfl, Or.inl rfl⟩ start
    rcases leads_of_exec row with (work | boundary) | ticks
    · exact work.keeps move popped
    · exact bounds boundary.bounds popped
    · cases ticks with
      | idle => exact tickOver popped
      | @tick u ready dues work => exact tick ready popped dues work (work.keeps move popped)
      | restart ready work runs =>
        exact tickOver (bounds (Boundary.restart runs).bounds (work.keeps move popped))

/-- What every change keeps, every step keeps. -/
theorem step_keeps {P : State → Prop} (move : ∀ {D E s t}, Move D E s t → P s → P t)
    (outside : ∀ {s t}, Outside s t → P s → P t) (reset : ∀ {s t}, ResetBegun s t → P s → P t)
    (boot : ∀ {s t}, s.device = .inReset → BootSelected s t → P s → P t)
    (bootEnd : ∀ {s}, s.device = .boot → P s → P s.endBoot) (tick : ∀ {s}, s.device = .ready → P s → P s.tickOn)
    {s t : State} (row : step s = .next t) (start : P s) : P t :=
  step_keeps_dues move outside reset boot bootEnd
    (fun ready _ _ work kept => tick (work.sameBoot.device.trans ready) kept) row start

/-! ### The queue, the factory row and the configuration -/

theorem Bounds.pending {s t : State} (boundary : Boundary s t) : t.pending = s.pending := by
  cases boundary
  case sag => rfl
  case powerOffInReset => rfl
  case rstLowInReset => rfl
  case brownout => exact (State.beginReset_cleared _ _).kept.2.2
  case powerOff => exact (s.beginReset_cleared .brownout).kept.2.2
  case powerOn => exact (State.beginReset_cleared _ _).kept.2.2
  case rstLow => exact (State.beginReset_cleared _ _).kept.2.2
  case release => unfold State.leaveReset; split <;> rfl
  case rstHigh => unfold State.leaveReset; split <;> rfl
  case restart =>
    have kept := (State.beginReset_cleared { s with restartTick := false } .restart).kept.2.2
    unfold State.endHold State.leaveReset
    dsimp only
    split <;> exact kept
  case bootEnd => exact s.endBoot_pending

theorem RowLeads.pending {s t : State} (leads : RowLeads s t) : t.pending = s.pending := by
  rcases leads with (work | boundary) | ticks
  · exact work.sameBoot.pending
  · exact Bounds.pending boundary
  · cases ticks with
    | idle => rfl
    | tick _ _ work => exact work.sameBoot.pending
    | restart _ work runs => exact (Bounds.pending (.restart runs)).trans work.sameBoot.pending

/-- Settles O2: every row leads somewhere, and no change touches the queue. -/
theorem execAnswersNext : Obligations.ExecAnswersNext := by
  unfold Obligations.ExecAnswersNext
  intro c s
  obtain ⟨t, row, leads⟩ := exec_leads c s
  exact ⟨t, row, leads.pending⟩

theorem ResetCleared.factoryRow {s t : State} (cleared : ResetCleared s t) :
    t.store.factoryRow = s.store.factoryRow :=
  cleared.rows 0 fun req _ _ _ => req.row.index_ne_zero

theorem Bounds.factoryRow {s t : State} (bounds : Bounds s t) : t.store.factoryRow = s.store.factoryRow := by
  have outside : ∀ {u}, Outside s u → u.store.factoryRow = s.store.factoryRow := fun change => by rw [change.same]
  cases bounds with
  | outside change => exact outside change
  | reset change begun => exact begun.cleared.factoryRow.trans (outside change)
  | restart change begun selected => rw [selected.store, begun.cleared.factoryRow, outside change]
  | boot _ change selected => rw [selected.store, outside change]
  | bootEnd => exact s.endBoot_factoryRow

theorem RowLeads.factoryRow {s t : State} (leads : RowLeads s t) : t.store.factoryRow = s.store.factoryRow := by
  rcases leads with (work | boundary) | ticks
  · exact work.sameBoot.factoryRow
  · exact boundary.bounds.factoryRow
  · cases ticks with
    | idle => rfl
    | tick _ _ work => exact work.sameBoot.factoryRow
    | restart _ work runs => exact (Boundary.restart runs).bounds.factoryRow.trans work.sameBoot.factoryRow

/-- A boundary that leaves READY READY touches the supply alone. -/
theorem Bounds.of_ready {s t : State} (bounds : Bounds s t) (ready : s.device = .ready) (still : t.device = .ready) :
    Outside s t := by
  cases bounds with
  | outside change => exact change
  | reset _ begun => rw [begun.cleared.device] at still; cases still
  | restart _ _ selected => rw [selected.device] at still; cases still
  | boot inReset => rw [ready] at inReset; cases inReset
  | bootEnd boot => rw [ready] at boot; cases boot

/-- A row that leaves READY READY is work, with a tick behind it perhaps, or touches the supply alone. -/
theorem RowLeads.of_ready {s t : State} (leads : RowLeads s t) (ready : s.device = .ready)
    (still : t.device = .ready) :
    Work s ∅ t ∨ Outside s t ∨ ∃ u, Work s ∅ u ∧ u = State.takeAllDue s.dueEvents.length s ∧ t = u.tickOn := by
  rcases leads with (work | boundary) | ticks
  · exact Or.inl work
  · exact Or.inr (Or.inl (boundary.bounds.of_ready ready still))
  · cases ticks with
    | idle notReady => exact absurd ready notReady
    | @tick u _ dues work => exact Or.inr (Or.inr ⟨u, work, dues, rfl⟩)
    | @restart v _ _ _ => exact absurd still v.endHold_device_ne_ready

/-- Settles O52: no change touches row 0, and a row from READY to READY is work. -/
theorem factoryRowAndConfigurationFixed : Obligations.FactoryRowAndConfigurationFixed := by
  unfold Obligations.FactoryRowAndConfigurationFixed
  intro c s t row
  have leads := leads_of_exec row
  refine ⟨leads.factoryRow, fun ready still => ?_⟩
  rcases leads.of_ready ready still with work | outside | ⟨u, work, -, rfl⟩
  · exact ⟨work.sameBoot.effective, work.sameBoot.chan⟩
  · rw [outside.same]; exact ⟨rfl, fun _ => ⟨rfl, rfl⟩⟩
  · exact ⟨work.sameBoot.effective, work.sameBoot.chan⟩

/-! ### The guard law -/

theorem GateChannel.takeGinh_guard {c : GateChannel} (level : Bool) {deadline : Word} :
    (c.takeGinh level).state = .guard deadline ↔ c.state = .guard deadline := by
  obtain ⟨key, guard, state, ginh⟩ := c
  cases state with
  | high => cases level <;> simp [GateChannel.takeGinh]
  | heldLow => cases level <;> simp [GateChannel.takeGinh]
  | unbound => simp [GateChannel.takeGinh]
  | idle => simp [GateChannel.takeGinh]
  | guard d => simp [GateChannel.takeGinh]

/-- A guard deadline that is not reached stands through every change of a boot. -/
theorem Move.guard_kept {D E : Set RecIx} {s t : State} (move : Move D E s t) {ch : Channel} {deadline : Word}
    (guard : (s.chan ch).state = .guard deadline) (ahead : deadline ≠ s.now) :
    (t.chan ch).state = .guard deadline := by
  cases move with
  | claim ready move => exact (move.channel ch).guard_kept guard ahead
  | store move => rw [State.chan, move.only.chans]; exact guard
  | link move =>
    cases move with
    | ginh d level =>
      rw [State.chan_setChan]
      split
      · rename_i same; rw [← same]; exact (GateChannel.takeGinh_guard level).mpr guard
      · exact guard
    | pin => exact guard
    | reply => exact guard
    | own => exact guard
    | hold => exact guard
    | ginhPin => exact guard

theorem Work.guard_kept {D : Set RecIx} {s t : State} (work : Work s D t) {ch : Channel} {deadline : Word}
    (guard : (s.chan ch).state = .guard deadline) (ahead : deadline ≠ s.now) :
    (t.chan ch).state = .guard deadline := by
  induction work with
  | refl => exact guard
  | tail work move ih => exact move.guard_kept ih (by rw [work.sameBoot.now]; exact ahead)
  | weaken _ _ ih => exact ih

/-- Settles O53: a row from READY to READY is work, each change of which keeps a guard that is not reached. -/
theorem guardLaw : Obligations.GuardLaw := by
  unfold Obligations.GuardLaw
  intro c s t ch deadline row ready still guard ahead
  have kept : (t.chan ch).state = .guard deadline := by
    rcases (leads_of_exec row).of_ready ready still with work | outside | ⟨u, work, -, rfl⟩
    · exact work.guard_kept guard ahead
    · rw [outside.same]; exact guard
    · exact work.guard_kept guard ahead
  exact ⟨kept, by rw [GateChannel.lineHigh, kept]; rfl⟩

end Sys2Proof.Machine
end

section
/-! The token unit along every row: TokenInv with the tests of an engine that serves its inputs, and the tokens
of the holdings. -/

namespace Sys2Proof.Machine

/-- TokenInv before the engine has served its inputs. -/
structure TokenLaw (s : State) : Prop where
  le : s.tok.G ≤ s.tok.F
  advancing : s.tok.state = .advancing → s.tok.F ≠ maxWord
  notReady : s.device ≠ .ready →
    s.store.engine = .idle ∧ s.store.advanceInput = none ∧ s.store.commitInput = none
  commit : ∀ req ∈ s.store.commitInput, req.isAdvance = false
  waiting : ∀ req ∈ s.store.advanceInput, req.isAdvance = true ∧ s.tok.state = .advancing ∧
    s.tok.F ≤ rowWord req.bytes 0 ∧ ∀ r ∈ s.store.engine.request, r.isAdvance = false
  running : ∀ req ∈ s.store.engine.request, req.isAdvance = true →
    s.tok.state = .advancing ∧ s.tok.F ≤ rowWord req.bytes 0

theorem tokenInv_iff (s : State) : TokenInv s ↔ TokenLaw s ∧ (s.store.engine = .idle → s.supply.low = false →
    s.store.advanceInput = none ∧ s.store.commitInput = none) := by
  constructor
  · rintro ⟨le, advancing, notReady, served, commit, waiting, running⟩
    exact ⟨⟨le, advancing, notReady, commit, waiting, running⟩, served⟩
  · rintro ⟨⟨le, advancing, notReady, commit, waiting, running⟩, served⟩
    exact ⟨le, advancing, notReady, served, commit, waiting, running⟩

theorem TokenInv.law {s : State} (inv : TokenInv s) : TokenLaw s := ((tokenInv_iff s).mp inv).1

/-- No advance is on its way. -/
def State.noAdvance (s : State) : Prop :=
  s.store.advanceInput = none ∧ ∀ req ∈ s.store.engine.request, req.isAdvance = false

theorem TokenLaw.noAdvance {s : State} (law : TokenLaw s) (still : s.tok.state ≠ .advancing) : s.noAdvance := by
  refine ⟨Option.eq_none_iff_forall_not_mem.mpr fun req waits => still (law.waiting req waits).2.1,
    fun req runs => ?_⟩
  rw [Bool.eq_false_iff]
  exact fun advance => still (law.running req runs advance).1

/-- Where an advance runs, no other waits. -/
theorem TokenLaw.noInput {s : State} (law : TokenLaw s) {req : RowRequest} (runs : s.store.engine.request = some req)
    (advance : req.isAdvance = true) : s.store.advanceInput = none := by
  refine Option.eq_none_iff_forall_not_mem.mpr fun other waits => ?_
  have nothing := (law.waiting other waits).2.2.2 req runs
  rw [advance] at nothing
  cases nothing

/-- An engine that programs is one of a part in READY. -/
theorem TokenLaw.ready_of_busy {s : State} (law : TokenLaw s) {req : RowRequest} {attempt : Attempt} {phase : Phase}
    (busy : s.store.engine = .busy req attempt phase) : s.device = .ready := by
  by_contra notReady
  rw [(law.notReady notReady).1] at busy
  cases busy

theorem TokenLaw.inv_of_kept {s : State} (law : TokenLaw s)
    (served : s.store.engine = .idle → s.supply.low = false →
      s.store.advanceInput = none ∧ s.store.commitInput = none) : TokenInv s := (tokenInv_iff s).mpr ⟨law, served⟩

/-! ### Changes that leave the law -/

/-- The law reads G, F and the state of the token unit, the device state, and the engine's requests. -/
theorem TokenLaw.of_same {s t : State} (law : TokenLaw s) (G : t.tok.G = s.tok.G) (F : t.tok.F = s.tok.F)
    (state : t.tok.state = s.tok.state) (device : t.device = s.device)
    (request : t.store.engine.request = s.store.engine.request)
    (advance : t.store.advanceInput = s.store.advanceInput)
    (commit : t.store.commitInput = s.store.commitInput) : TokenLaw t := by
  have idle : s.store.engine = .idle → t.store.engine = .idle := by
    intro idle
    rw [idle] at request
    cases engine : t.store.engine with
    | idle => rfl
    | busy req attempt phase => rw [engine] at request; cases request
  constructor
  case le => rw [G, F]; exact law.le
  case advancing => rw [state, F]; exact law.advancing
  case notReady =>
    rw [device, advance, commit]
    exact fun notReady => (law.notReady notReady).imp_left idle
  case commit => rw [commit]; exact law.commit
  case waiting => rw [advance, state, F, request]; exact law.waiting
  case running => rw [request, state, F]; exact law.running

theorem TokenInv.of_same {s t : State} (inv : TokenInv s) (tok : t.tok = s.tok) (store : t.store = s.store)
    (device : t.device = s.device) (low : t.supply.low = s.supply.low) : TokenInv t := by
  obtain ⟨law, served⟩ := (tokenInv_iff s).mp inv
  refine (law.of_same (by rw [tok]) (by rw [tok]) (by rw [tok]) device (by rw [store]) (by rw [store])
    (by rw [store])).inv_of_kept ?_
  rw [store, low]
  exact served

/-! ### The engine's inputs are served -/

/-- An engine that serves its inputs makes the law the invariant (R158). -/
theorem TokenLaw.kickEngine {s : State} (law : TokenLaw s) : TokenInv s.kickEngine := by
  cases engine : s.store.engine with
  | busy req attempt phase =>
    rw [State.kickEngine_of_busy (by rw [engine]; simp)]
    exact law.inv_of_kept fun idle => by rw [engine] at idle; cases idle
  | idle =>
    cases low : s.supply.low with
    | true =>
      rw [State.kickEngine_of_low engine low]
      exact law.inv_of_kept fun _ clear => by rw [low] at clear; cases clear
    | false =>
      have served := State.kickEngine_served engine
      rw [InputsServed, if_neg (by simp [low])] at served
      cases advance : s.store.advanceInput with
      | some req =>
        rw [advance] at served
        obtain ⟨isAdvance, advancing, floor, -⟩ := law.waiting req advance
        have ready : s.device = .ready := by
          by_contra notReady
          rw [(law.notReady notReady).2.1] at advance
          cases advance
        rw [served]
        refine TokenLaw.inv_of_kept ⟨law.le, law.advancing, fun notReady => absurd ready notReady, law.commit,
          (fun _ waits => by cases waits), fun req' runs _ => ?_⟩ (fun idle => by cases idle)
        cases runs
        exact ⟨advancing, floor⟩
      | none =>
        rw [advance] at served
        cases commit : s.store.commitInput with
        | none =>
          rw [commit] at served
          rw [served]
          exact law.inv_of_kept fun _ _ => ⟨advance, commit⟩
        | some req =>
          rw [commit] at served
          have isCommit := law.commit req commit
          have ready : s.device = .ready := by
            by_contra notReady
            rw [(law.notReady notReady).2.2] at commit
            cases commit
          have started : ∀ cfg, TokenInv { s with
              store := { s.store with commitInput := none, engine := .busy req .first .erase }, cfg := cfg } := by
            intro cfg
            refine TokenLaw.inv_of_kept ⟨law.le, law.advancing, fun notReady => absurd ready notReady,
              (fun _ waits => by cases waits), fun req' waits => ?_, fun req' runs advances => ?_⟩
                (fun idle => by cases idle)
            · rw [show s.store.advanceInput = some req' from waits] at advance; cases advance
            · cases runs
              rw [isCommit] at advances
              cases advances
          dsimp only at served
          split at served
          · split at served
            · rw [served]
              refine TokenLaw.inv_of_kept ⟨law.le, law.advancing, fun notReady => absurd ready notReady,
                (fun _ waits => by cases waits), law.waiting, law.running⟩ fun _ _ => ⟨advance, rfl⟩
            · rw [served]; exact started _
          · rw [served]; exact started s.cfg
          · rw [served]; exact started s.cfg

/-- An advance is requested where none is on its way (R56). -/
theorem TokenLaw.requestAdvance {s : State} (law : TokenLaw s) (ready : s.device = .ready) (free : s.noAdvance)
    (below : s.tok.F ≠ maxWord) : TokenInv s.requestAdvance := by
  obtain ⟨noInput, noRun⟩ := free
  refine TokenLaw.kickEngine ⟨law.le, fun _ => below, fun notReady => absurd ready notReady, law.commit,
    fun req waits => ?_, fun req runs advances => ?_⟩
  · cases waits
    refine ⟨rfl, rfl, ?_, noRun⟩
    show s.tok.F ≤ rowWord (reserveRow (nextFloor s.tok.F)) 0
    rw [rowWord_reserveRow]
    exact le_nextFloor s.tok.F
  · rw [noRun req runs] at advances
    cases advances

theorem TokenLaw.lowWaterTest {s : State} (law : TokenLaw s) (ready : s.device = .ready) :
    TokenLaw s.lowWaterTest := by
  unfold State.lowWaterTest
  split
  · rename_i test
    obtain ⟨normal, low⟩ := test
    rw [TokenUnit.lowWater, Bool.and_eq_true] at low
    exact (law.requestAdvance ready (law.noAdvance (by rw [normal]; simp)) (by simpa using low.2)).law
  · exact law

theorem TokenInv.lowWaterTest {s : State} (inv : TokenInv s) (ready : s.device = .ready) :
    TokenInv s.lowWaterTest := by
  unfold State.lowWaterTest
  split
  · rename_i test
    obtain ⟨normal, low⟩ := test
    rw [TokenUnit.lowWater, Bool.and_eq_true] at low
    exact inv.law.requestAdvance ready (inv.law.noAdvance (by rw [normal]; simp)) (by simpa using low.2)
  · exact inv

/-! ### Draws -/

theorem TokenUnit.lt_of_available {t : TokenUnit} (available : t.available = true) : t.G < t.F :=
  (t.available_iff.mp available).1

theorem TokenUnit.succ_le_of_available {t : TokenUnit} (available : t.available = true) : t.G + 1#32 ≤ t.F := by
  have below := t.lt_of_available available
  have bound := t.F.isLt
  rw [BitVec.lt_def] at below
  rw [BitVec.le_def, BitVec.toNat_add, BitVec.toNat_ofNat]
  omega

theorem TokenUnit.lt_succ_of_available {t : TokenUnit} (available : t.available = true) : t.G < t.G + 1#32 := by
  have below := t.lt_of_available available
  have bound := t.F.isLt
  rw [BitVec.lt_def] at below
  rw [BitVec.lt_def, BitVec.toNat_add, BitVec.toNat_ofNat]
  omega

/-- A draw of a token that is available (R54, R56, R62). -/
theorem TokenInv.drawToken {s : State} (inv : TokenInv s) (ready : s.device = .ready)
    (available : s.tok.available = true) : TokenInv s.drawToken := by
  have next := TokenUnit.succ_le_of_available available
  obtain ⟨law, served⟩ := (tokenInv_iff s).mp inv
  unfold State.drawToken
  dsimp only
  split
  · rename_i spent
    obtain ⟨noInput, noRun⟩ : s.noAdvance := law.noAdvance fun advancing => law.advancing advancing spent.2
    refine TokenLaw.inv_of_kept ⟨next, (fun advancing => by cases advancing), law.notReady, law.commit,
      fun req waits => ?_, fun req runs advances => ?_⟩ served
    · rw [show s.store.advanceInput = some req from waits] at noInput; cases noInput
    · rw [noRun req runs] at advances; cases advances
  · exact TokenInv.lowWaterTest (s := { s with tok := { s.tok with G := s.tok.G + 1#32 } })
      (TokenLaw.inv_of_kept ⟨next, law.advancing, law.notReady, law.commit, law.waiting, law.running⟩ served) ready

theorem ClaimMove.tokenInv {D E : Set RecIx} {s t : State} (move : ClaimMove D E s t) (ready : s.device = .ready)
    (inv : TokenInv s) : TokenInv t := by
  rcases move.token with ⟨tok, store, available⟩ | ⟨store, demand, tok⟩
  · exact (inv.drawToken ready available).of_same tok store
      (move.sameBoot.device.trans s.drawToken_frame.device.symm) (by rw [move.supply, s.drawToken_frame.supply])
  · obtain ⟨law, served⟩ := (tokenInv_iff s).mp inv
    refine (law.of_same (by rw [tok]) (by rw [tok]) (by rw [tok]) move.sameBoot.device (by rw [store]) (by rw [store])
      (by rw [store])).inv_of_kept ?_
    rw [store, move.supply]
    exact served

/-! ### The ends of a row -/

/-- The token unit at its new floor, before the low-water test (R58). -/
def State.raiseFloor (s : State) (side : Side) (bytes : Row) : State :=
  { s with
    tok := { s.tok with F := rowWord bytes 0, active := some side, state := .normal, demand := false }
    availSweep := if s.tok.demand then some 0 else s.availSweep }

theorem State.completeAdvance_eq_raiseFloor (s : State) (side : Side) (bytes : Row) :
    s.completeAdvance side bytes = (s.raiseFloor side bytes).lowWaterTest := rfl

section
variable {s : State} {req : RowRequest} {attempt : Attempt}

/-- A row in its verify phase, and the engine that returns to IDLE. -/
theorem TokenLaw.engineIdle (law : TokenLaw s) (engine : s.store.engine = .busy req attempt .verify) :
    TokenLaw s.engineIdle := by
  have ready := law.ready_of_busy engine
  refine ⟨law.le, law.advancing, fun notReady => absurd ready notReady, law.commit, fun req' waits => ?_,
    (fun req' runs => by cases runs)⟩
  obtain ⟨isAdvance, advancing, floor, -⟩ := law.waiting req' waits
  exact ⟨isAdvance, advancing, floor, (fun r runs => by cases runs)⟩

theorem TokenLaw.raiseFloor (law : TokenLaw s) (engine : s.store.engine = .busy req attempt .verify) {side : Side}
    (row : req.row = .reserve side) : TokenLaw (s.engineIdle.raiseFloor side req.bytes) := by
  have ready := law.ready_of_busy engine
  have runs : s.store.engine.request = some req := by rw [engine]; rfl
  have advance : req.isAdvance = true := by rw [RowRequest.isAdvance, row]
  have floor := (law.running req runs advance).2
  have noInput := law.noInput runs advance
  refine ⟨BitVec.le_trans law.le floor, (fun advancing => by cases advancing),
    fun notReady => absurd ready notReady, law.commit, fun req' waits => ?_, (fun req' runs => by cases runs)⟩
  rw [show s.store.advanceInput = some req' from waits] at noInput
  cases noInput

theorem TokenLaw.rowSucceeded (law : TokenLaw s) (engine : s.store.engine = .busy req attempt .verify) :
    TokenLaw (s.engineIdle.rowSucceeded req) := by
  have ready := law.ready_of_busy engine
  have idle := law.engineIdle engine
  unfold State.rowSucceeded
  split
  case h_1 side row => exact (law.raiseFloor engine row).lowWaterTest ready
  case h_2 side row =>
    unfold State.handSecondRow
    split
    · refine ⟨idle.le, idle.advancing, fun notReady => absurd ready notReady, fun req' waits => ?_, idle.waiting,
        idle.running⟩
      cases waits
      rfl
    · exact idle
  case h_3 side row => exact idle.of_same rfl rfl rfl rfl rfl rfl rfl

theorem TokenLaw.rowFailed (law : TokenLaw s) (engine : s.store.engine = .busy req attempt .verify) :
    TokenLaw (s.engineIdle.rowFailed req) := by
  have ready := law.ready_of_busy engine
  have idle := law.engineIdle engine
  have runs : s.store.engine.request = some req := by rw [engine]; rfl
  unfold State.rowFailed
  split
  case h_1 side row =>
    have noInput := law.noInput runs (by rw [RowRequest.isAdvance, row])
    refine ⟨law.le, (fun advancing => by cases advancing), fun notReady => absurd ready notReady, law.commit,
      fun req' waits => ?_, (fun req' runs => by cases runs)⟩
    rw [show s.store.advanceInput = some req' from waits] at noInput
    cases noInput
  case h_2 side row => exact idle.of_same rfl rfl rfl rfl rfl rfl rfl
  case h_3 side row => exact idle.of_same rfl rfl rfl rfl rfl rfl rfl

end

theorem TokenInv.of_engine {s t : State} (inv : TokenInv s) {req : RowRequest} {attempt attempt' : Attempt}
    {phase phase' : Phase} (engine : s.store.engine = .busy req attempt phase)
    (engine' : t.store.engine = .busy req attempt' phase') (tok : t.tok = s.tok) (device : t.device = s.device)
    (advance : t.store.advanceInput = s.store.advanceInput) (commit : t.store.commitInput = s.store.commitInput) :
    TokenInv t := by
  refine (inv.law.of_same (by rw [tok]) (by rw [tok]) (by rw [tok]) device (by rw [engine, engine']; rfl) advance
    commit).inv_of_kept fun idle => ?_
  rw [engine'] at idle
  cases idle

theorem StoreMove.tokenInv {s t : State} (move : StoreMove s t) (inv : TokenInv s) : TokenInv t := by
  obtain ⟨law, served⟩ := (tokenInv_iff s).mp inv
  cases move
  case openImage => exact inv.of_same rfl rfl rfl rfl
  case setImage => exact inv.of_same rfl rfl rfl rfl
  case abort => exact inv.of_same rfl rfl rfl rfl
  case commit img ready opened image good =>
    refine TokenLaw.kickEngine ⟨law.le, law.advancing, fun notReady => absurd ready notReady, fun req waits => ?_,
      law.waiting, law.running⟩
    cases waits
    rfl
  case erased req attempt engine => exact inv.of_engine engine rfl rfl rfl rfl rfl
  case written req attempt engine => exact inv.of_engine engine rfl rfl rfl rfl rfl
  case verified req attempt engine => exact (law.rowSucceeded engine).kickEngine
  case retried req engine => exact inv.of_engine engine rfl rfl rfl rfl rfl
  case failed req engine =>
    have spoilt : TokenLaw (s.spoilRow req) := law.of_same rfl rfl rfl rfl rfl rfl rfl
    exact (spoilt.rowFailed (attempt := .second) engine).kickEngine
  case lowSet =>
    exact TokenLaw.inv_of_kept (law.of_same rfl rfl rfl rfl rfl rfl rfl) (fun _ clear => by cases clear)
  case lowClear =>
    exact TokenLaw.kickEngine (s := { s with supply := { s.supply with low := false } })
      (law.of_same rfl rfl rfl rfl rfl rfl rfl)

theorem Move.tokenInv {D E : Set RecIx} {s t : State} (move : Move D E s t) (inv : TokenInv s) : TokenInv t := by
  cases move with
  | claim ready move => exact move.tokenInv ready inv
  | store move => exact move.tokenInv inv
  | link move =>
    exact inv.of_same move.only.tok move.only.store move.sameBoot.device (by rw [move.only.supply])

/-! ### Resets and BOOT -/

theorem Outside.tokenInv {s t : State} (outside : Outside s t) (inv : TokenInv s) : TokenInv t := by
  obtain ⟨law, served⟩ := (tokenInv_iff s).mp inv
  have store : t.store = s.store := by rw [outside.same]
  have tok : t.tok = s.tok := by rw [outside.same]
  refine (law.of_same (by rw [tok]) (by rw [tok]) (by rw [tok]) (by rw [outside.same]) (by rw [store]) (by rw [store])
    (by rw [store])).inv_of_kept fun idle clear => ?_
  rw [store] at idle ⊢
  rcases outside.low with low | low | inReset
  · exact served idle (low.symm.trans clear)
  · rw [low] at clear; cases clear
  · exact (law.notReady (by rw [inReset]; simp)).2

theorem ResetBegun.tokenInv {s t : State} (begun : ResetBegun s t) : TokenInv t := by
  obtain ⟨engine, advance, commit⟩ := begun.cleared.engine
  refine TokenLaw.inv_of_kept ⟨?_, fun _ => ?_, fun _ => begun.cleared.engine, fun req waits => ?_,
    fun req waits => ?_, fun req runs => ?_⟩ fun _ _ => ⟨advance, commit⟩
  · rw [begun.tok]; decide
  · rw [begun.tok]; decide
  · rw [commit] at waits; cases waits
  · rw [advance] at waits; cases waits
  · rw [engine] at runs; cases runs

/-- The token unit as start-up selection leaves it (R68). -/
theorem selectTokens_selected (a b : ReserveClass) : (selectTokens a b).G = (selectTokens a b).F ∧
    ((selectTokens a b).state = .advancing → (selectTokens a b).F ≠ maxWord) := by
  unfold selectTokens
  split
  · exact ⟨rfl, (fun advancing => by cases advancing)⟩
  · refine ⟨rfl, fun advancing spent => ?_⟩
    dsimp only at advancing spent
    rw [if_pos spent] at advancing
    cases advancing

theorem BootSelected.tokenInv {s t : State} (inReset : s.device = .inReset) (selected : BootSelected s t)
    (inv : TokenInv s) : TokenInv t := by
  obtain ⟨engine, advance, commit⟩ := inv.law.notReady (by rw [inReset]; simp)
  obtain ⟨equal, below⟩ := selectTokens_selected (s.reserveRowClass .a) (s.reserveRowClass .b)
  refine TokenLaw.inv_of_kept ⟨?_, ?_, fun _ => ?_, fun req waits => ?_, fun req waits => ?_, fun req runs => ?_⟩
    fun _ _ => ?_
  · rw [selected.tok, equal]; exact BitVec.le_refl _
  · rw [selected.tok]; exact below
  · rw [selected.store]; exact ⟨engine, advance, commit⟩
  · rw [selected.store, commit] at waits; cases waits
  · rw [selected.store, advance] at waits; cases waits
  · rw [selected.store, engine] at runs; cases runs
  · rw [selected.store]; exact ⟨advance, commit⟩

theorem TokenLaw.endBoot {s : State} (law : TokenLaw s) :
    TokenLaw { s with device := .ready, restartTick := false } :=
  ⟨law.le, law.advancing, fun notReady => absurd rfl notReady, law.commit, law.waiting, law.running⟩

/-- No advance is on its way outside READY. -/
theorem TokenLaw.noAdvance_of_notReady {s : State} (law : TokenLaw s) (notReady : s.device ≠ .ready) : s.noAdvance := by
  obtain ⟨engine, advance, -⟩ := law.notReady notReady
  exact ⟨advance, fun req runs => by rw [engine] at runs; cases runs⟩

theorem State.endBoot_tokenInv {s : State} (boot : s.device = .boot) (inv : TokenInv s) : TokenInv s.endBoot := by
  have notReady : s.device ≠ .ready := by rw [boot]; simp
  obtain ⟨-, advance, commit⟩ := inv.law.notReady notReady
  rcases State.bootLowWaterTest_eq { s with device := .ready, restartTick := false } with same | ⟨-, below, same⟩
  · rw [State.endBoot, same]
    exact inv.law.endBoot.inv_of_kept fun _ _ => ⟨advance, commit⟩
  · rw [State.endBoot, same]
    exact inv.law.endBoot.requestAdvance rfl (inv.law.noAdvance_of_notReady notReady) below

/-! ### The tokens of the holdings -/

theorem HoldingTokenInv.of_same {s t : State} (inv : HoldingTokenInv s) (table : t.table = s.table)
    (G : t.tok.G = s.tok.G) (device : t.device = .inReset → s.device = .inReset) : HoldingTokenInv t := by
  have records : ∀ i, t.record i = s.record i := fun i => by rw [State.record, State.record, table]
  refine ⟨fun i r stands p h held => ?_, fun inReset i => ?_⟩
  · rw [G]
    rw [records] at stands
    exact inv.1 i r stands p h held
  · rw [records]; exact inv.2 (device inReset) i

theorem ClaimMove.holdingTokenInv {D E : Set RecIx} {s t : State} (move : ClaimMove D E s t)
    (ready : s.device = .ready) (inv : HoldingTokenInv s) : HoldingTokenInv t := by
  have grows : s.tok.G ≤ t.tok.G := by
    rcases move.token with drawn | ⟨-, demand, tok⟩
    · rw [drawn.G]; exact BitVec.le_of_lt (TokenUnit.lt_succ_of_available drawn.2.2)
    · rw [tok]; exact BitVec.le_refl _
  refine ⟨fun i r stands p h held => ?_, fun inReset => ?_⟩
  · rcases (move.claimsFrom i r stands).1 p h held with ⟨r', h', stands', -, held', token, -⟩ | ⟨drawn, token, -⟩
    · have below := inv.1 i r' stands' p h' held'
      rw [← token]
      bv_omega
    · rw [token, drawn.G]; exact TokenUnit.lt_succ_of_available drawn.2.2
  · rw [move.sameBoot.device, ready] at inReset; cases inReset

theorem Move.holdingTokenInv {D E : Set RecIx} {s t : State} (move : Move D E s t) (inv : HoldingTokenInv s) :
    HoldingTokenInv t := by
  have device : t.device = .inReset → s.device = .inReset := fun inReset => move.sameBoot.device ▸ inReset
  cases move with
  | claim ready move => exact move.holdingTokenInv ready inv
  | store move => exact inv.of_same move.only.table move.only.G device
  | link move => exact inv.of_same move.only.table (by rw [move.only.tok]) device

theorem holdingTokenInv_of_empty {s : State} (empty : ∀ i, s.record i = none) : HoldingTokenInv s := by
  refine ⟨fun i r stands => ?_, fun _ => empty⟩
  rw [empty] at stands
  cases stands

/-- Settles O54: each change keeps both invariants. -/
theorem tokenInvariantsKept : Obligations.TokenInvariantsKept := by
  unfold Obligations.TokenInvariantsKept
  intro s t row
  refine ⟨step_keeps (P := TokenInv) (fun move inv => move.tokenInv inv) (fun outside inv => outside.tokenInv inv)
    (fun begun _ => begun.tokenInv) (fun inReset selected inv => selected.tokenInv inReset inv)
    (fun boot inv => State.endBoot_tokenInv boot inv) (fun _ inv => inv.of_same rfl rfl rfl rfl) row, ?_⟩
  refine step_keeps (P := HoldingTokenInv) (fun move inv => move.holdingTokenInv inv) (fun outside inv => ?_)
    (fun begun _ => holdingTokenInv_of_empty begun.cleared.table) (fun inReset selected inv => ?_)
    (fun {s} _ inv => ?_) (fun _ inv => inv.of_same rfl rfl id) row
  · refine inv.of_same ?_ ?_ ?_
    · rw [outside.same]
    · rw [outside.same]
    · rw [outside.same]; exact id
  · refine holdingTokenInv_of_empty fun i => ?_
    rw [State.record, selected.table]
    exact inv.2 inReset i
  · refine inv.of_same s.endBoot_only.table s.endBoot_only.G fun inReset => ?_
    rw [s.endBoot_device] at inReset
    cases inReset

end Sys2Proof.Machine
end

section
/-! The claim table with its slots and notices along every row: ClaimTableInv as what each claim says of its slot
and each slot of its claim, kept by every change; and no record without an entry behind a row. -/

namespace Sys2Proof.Machine

/-! ### Claims and slots -/

/-- The record has a claim of the port that the slot, in this state, accounts for (R103). -/
def Record.claims (r : Record) (p : Port) (k : SlotIx) (sl : Slot) : Prop :=
  (∃ h, r.holder p = some h ∧ h.slot = k ∧ h.slotState r.key = sl) ∨
    ∃ w ∈ r.waiters, w.port = p ∧ w.slot = k ∧ w.slotState r.key = sl

/-- The key of the claim that a slot accounts for; none where it is FREE or PINNED. -/
def Slot.claimKey (sl : Slot) : Option Word :=
  match sl with
  | .free => none
  | .waiting key _ _ _ => some key
  | .reserved key _ _ _ => some key
  | .holding key _ _ _ => some key
  | .pinned _ _ => none

/-- How many notices may name a slot in this state (R103, R111). -/
def Slot.allows (sl : Slot) (named : Nat) : Prop :=
  match sl with
  | .free => named = 0
  | .waiting _ _ _ _ => named = 0
  | .reserved _ _ _ _ => named = 0
  | .holding _ _ _ _ => named ≤ 1
  | .pinned _ _ => 1 ≤ named ∧ named ≤ 2

theorem Slot.allows_le_two {sl : Slot} {named : Nat} (allows : sl.allows named) : named ≤ 2 := by
  unfold Slot.allows at allows
  split at allows <;> omega

@[simp] theorem Holding.slotState_claimKey (h : Holding) (key : Word) : (h.slotState key).claimKey = some key := rfl

@[simp] theorem Waiter.slotState_claimKey (w : Waiter) (key : Word) : (w.slotState key).claimKey = some key := by
  unfold Waiter.slotState
  split <;> rfl

theorem Record.claims_key {r : Record} {p : Port} {k : SlotIx} {sl : Slot} (claims : r.claims p k sl) :
    sl.claimKey = some r.key := by
  rcases claims with ⟨h, -, -, rfl⟩ | ⟨w, -, -, -, rfl⟩
  · rfl
  · exact w.slotState_claimKey r.key

/-- A record in shape: no port twice, an EXCLUSIVE holding alone, RESERVED at the head alone. -/
structure Record.InShape (r : Record) : Prop where
  key : r.key ≠ 0#32
  onePerPort : r.onePerPort
  alone : ∀ p h, r.holder p = some h → h.mode = .exclusive → ∀ q, q ≠ p → r.holder q = none
  reservedHead : ∀ w ∈ r.waiters.tail, w.state = .queued

/-- The sequence numbers of a queue: consecutive, up to the counter (R112). -/
def PortUnit.numbered (u : PortUnit) : Prop :=
  u.notices.map (fun n => n.seq) = (List.range u.notices.length).map fun j =>
    u.seq - BitVec.ofNat 8 (u.notices.length - j)

/-- ClaimTableInv but for the records without an entry, and the bound of the queues, which follows. -/
structure ClaimsInv (s : State) : Prop where
  shape : ∀ i r, s.record i = some r → r.InShape
  keys : ∀ i j r r', s.record i = some r → s.record j = some r' → r.key = r'.key → i = j
  accounted : ∀ i r, s.record i = some r → ∀ p k sl, r.claims p k sl → (s.port p).attached = true ∧ s.slot p k = sl
  claimed : ∀ p k key, (s.slot p k).claimKey = some key → ∃ i r, s.record i = some r ∧ r.claims p k (s.slot p k)
  named : ∀ p k, (s.slot p k).allows (s.noticesNaming p k)
  numbered : ∀ p, (s.port p).numbered
  detached : ∀ p, (s.port p).attached = false → (∀ k, s.slot p k = .free) ∧ (s.port p).notices = []

/-- No record stands without an entry outside the set of indices. -/
def State.tidy (s : State) (D : Set RecIx) : Prop := ∀ i, i ∉ D → ∀ r, s.record i = some r → r.isEmpty = false

theorem Record.claims_of_holder {r : Record} {p : Port} {h : Holding} (held : r.holder p = some h) :
    r.claims p h.slot (h.slotState r.key) := Or.inl ⟨h, held, rfl, rfl⟩

theorem Record.claims_of_waiter {r : Record} {w : Waiter} (mem : w ∈ r.waiters) :
    r.claims w.port w.slot (w.slotState r.key) := Or.inr ⟨w, mem, rfl, rfl, rfl⟩

/-- A queue has as many notices as name its port's slots. -/
theorem length_eq_sum_named (notices : List Notice) :
    notices.length = ∑ k : SlotIx, notices.countP fun n => n.slot == k := by
  induction notices with
  | nil => simp
  | cons n rest ih =>
    simp only [List.countP_cons, List.length_cons, Finset.sum_add_distrib, ← ih]
    simp

theorem ClaimsInv.length_le {s : State} (inv : ClaimsInv s) (p : Port) : (s.port p).notices.length ≤ 16 := by
  rw [length_eq_sum_named]
  calc ∑ k : SlotIx, (s.port p).notices.countP (fun n => n.slot == k)
      ≤ ∑ _k : SlotIx, 2 := Finset.sum_le_sum fun k _ => Slot.allows_le_two (inv.named p k)
    _ = 16 := by simp

theorem claimTableInv_iff (s : State) : ClaimTableInv s ↔ ClaimsInv s ∧ s.tidy ∅ := by
  constructor
  · rintro ⟨records, keys, slots, queues, detached⟩
    have accounted : ∀ i r, s.record i = some r → ∀ p k sl, r.claims p k sl →
        (s.port p).attached = true ∧ s.slot p k = sl := by
      rintro i r stands p k sl (⟨h, held, rfl, rfl⟩ | ⟨w, mem, rfl, rfl, rfl⟩)
      · exact (records i r stands).holders p h held
      · exact (records i r stands).waiters w mem
    refine ⟨⟨fun i r stands => ?_, fun i j r r' stands stands' same => keys i j r stands r' stands' same, accounted,
      fun p k key claim => ?_, fun p k => ?_, fun p => (queues p).2, detached⟩,
      fun i _ r stands => (records i r stands).entry⟩
    · obtain ⟨key, -, single, alone, head, -, -⟩ := records i r stands
      exact ⟨key, single, alone, head⟩
    · have slot := slots p k
      unfold SlotInv at slot
      cases state : s.slot p k with
      | free => rw [state] at claim; cases claim
      | pinned => rw [state] at claim; cases claim
      | waiting key' mode deadline lease =>
        rw [state] at slot
        obtain ⟨-, i, r, stands, -, w, mem, rfl, rfl⟩ := slot
        have claims := Record.claims_of_waiter mem
        rw [← (accounted i r stands _ _ _ claims).2, state] at claims
        exact ⟨i, r, stands, claims⟩
      | reserved key' mode deadline lease =>
        rw [state] at slot
        obtain ⟨-, i, r, stands, -, w, mem, rfl, rfl⟩ := slot
        have claims := Record.claims_of_waiter mem
        rw [← (accounted i r stands _ _ _ claims).2, state] at claims
        exact ⟨i, r, stands, claims⟩
      | holding key' mode token deadline =>
        rw [state] at slot
        obtain ⟨-, i, r, stands, -, h, held, rfl⟩ := slot
        have claims := Record.claims_of_holder held
        rw [← (accounted i r stands _ _ _ claims).2, state] at claims
        exact ⟨i, r, stands, claims⟩
    · have slot := slots p k
      unfold SlotInv at slot
      unfold Slot.allows State.noticesNaming
      cases state : s.slot p k <;> rw [state] at slot
      case free => exact slot
      case pinned => exact slot
      case waiting => exact slot.1
      case reserved => exact slot.1
      case holding => exact slot.1
  · rintro ⟨inv, tidy⟩
    refine ⟨fun i r stands => ?_, fun i j r stands r' stands' same => inv.keys i j r r' stands stands' same,
      fun p k => ?_, fun p => ⟨inv.length_le p, inv.numbered p⟩, inv.detached⟩
    · obtain ⟨key, single, alone, head⟩ := inv.shape i r stands
      exact ⟨key, tidy i (by simp) r stands, single, alone, head,
        fun p h held => inv.accounted i r stands _ _ _ (Record.claims_of_holder held),
        fun w mem => inv.accounted i r stands _ _ _ (Record.claims_of_waiter mem)⟩
    · have named := inv.named p k
      have claimed := inv.claimed p k
      unfold SlotInv
      unfold Slot.allows State.noticesNaming at named
      cases state : s.slot p k <;> rw [state] at named claimed <;> dsimp only at named ⊢
      case free => exact named
      case pinned => exact named
      case waiting key mode deadline lease =>
        obtain ⟨i, r, stands, claims⟩ := claimed key rfl
        refine ⟨named, i, r, stands, Option.some.inj (Record.claims_key claims).symm, ?_⟩
        rcases claims with ⟨h, -, -, state⟩ | ⟨w, mem, port, slot, -⟩
        · cases state
        · exact ⟨w, mem, port, slot⟩
      case reserved key mode deadline lease =>
        obtain ⟨i, r, stands, claims⟩ := claimed key rfl
        refine ⟨named, i, r, stands, Option.some.inj (Record.claims_key claims).symm, ?_⟩
        rcases claims with ⟨h, -, -, state⟩ | ⟨w, mem, port, slot, -⟩
        · cases state
        · exact ⟨w, mem, port, slot⟩
      case holding key mode token deadline =>
        obtain ⟨i, r, stands, claims⟩ := claimed key rfl
        refine ⟨named, i, r, stands, Option.some.inj (Record.claims_key claims).symm, ?_⟩
        rcases claims with ⟨h, held, slot, -⟩ | ⟨w, -, -, -, state⟩
        · exact ⟨h, held, slot⟩
        · unfold Waiter.slotState at state
          split at state <;> cases state

/-! ### What leaves the claims alone -/

theorem ClaimsInv.of_same {s t : State} (inv : ClaimsInv s) (same : ClaimsSame s t) : ClaimsInv t := by
  have record : ∀ i, t.record i = s.record i := fun i => by rw [State.record, State.record, same.table]
  have slot : ∀ p k, t.slot p k = s.slot p k := fun p k => by rw [State.slot, State.slot, same.slots]
  have named : ∀ p k, t.noticesNaming p k = s.noticesNaming p k := fun p k => by
    rw [State.noticesNaming, State.noticesNaming, (same.queue p).1]
  constructor
  case shape => simp only [record]; exact inv.shape
  case keys => simp only [record]; exact inv.keys
  case accounted => simp only [record, slot, (same.queue _).2.2]; exact inv.accounted
  case claimed => simp only [record, slot]; exact inv.claimed
  case named => simp only [slot, named]; exact inv.named
  case numbered =>
    intro p
    obtain ⟨notices, seq, -⟩ := same.queue p
    rw [PortUnit.numbered, notices, seq]
    exact inv.numbered p
  case detached => simp only [slot, same.queue]; exact inv.detached

theorem claimsInv_of_empty {s : State} (records : ∀ i, s.record i = none) (slots : ∀ p k, s.slot p k = .free)
    (notices : ∀ p, (s.port p).notices = []) : ClaimsInv s := by
  have impossible : ∀ {i r}, s.record i = some r → False := fun {i r} stands => by rw [records] at stands; cases stands
  refine ⟨fun i r stands => (impossible stands).elim, fun i j r r' stands => (impossible stands).elim,
    fun i r stands => (impossible stands).elim, fun p k key claim => ?_, fun p k => ?_, fun p => ?_,
    fun p _ => ⟨slots p, notices p⟩⟩
  · rw [slots] at claim; cases claim
  · rw [slots, State.noticesNaming, notices]; rfl
  · rw [PortUnit.numbered, notices]; rfl

/-! ### A queue that grows or shrinks -/

theorem PortUnit.numbered_append {u : PortUnit} (numbered : u.numbered) {n : Notice} (seq : n.seq = u.seq) :
    ({ u with notices := u.notices ++ [n], seq := u.seq + 1#8 } : PortUnit).numbered := by
  unfold PortUnit.numbered at numbered ⊢
  dsimp only
  rw [List.map_append, numbered, List.length_append, List.length_singleton, List.range_succ, List.map_append]
  congr 1
  · refine List.map_congr_left fun j mem => ?_
    rw [List.mem_range] at mem
    have shifted : u.notices.length + 1 - j = (u.notices.length - j) + 1 := by omega
    rw [shifted, BitVec.ofNat_add]
    bv_omega
  · simp [seq]

theorem PortUnit.numbered_tail {u : PortUnit} (numbered : u.numbered) {n : Notice} {rest : List Notice}
    (oldest : u.notices = n :: rest) : ({ u with notices := rest } : PortUnit).numbered := by
  unfold PortUnit.numbered at numbered ⊢
  dsimp only
  rw [oldest, List.map_cons, List.length_cons, List.range_succ_eq_map, List.map_cons, List.map_map] at numbered
  obtain ⟨-, tail⟩ := List.cons.inj numbered
  rw [tail]
  refine List.map_congr_left fun j _ => ?_
  show u.seq - BitVec.ofNat 8 (rest.length + 1 - (j + 1)) = _
  rw [Nat.add_sub_add_right]

theorem PortUnit.numbered_nil {u : PortUnit} (empty : u.notices = []) : u.numbered := by
  rw [PortUnit.numbered, empty]; rfl

/-! ### One claim replaced -/

/-- The queue of a port as it was, or with one more notice, which names a slot. -/
def QueueGrown (u v : PortUnit) (k : SlotIx) : Prop :=
  v.notices = u.notices ∧ v.seq = u.seq ∨
    ∃ n : Notice, n.slot = k ∧ n.seq = u.seq ∧ v.notices = u.notices ++ [n] ∧ v.seq = u.seq + 1#8

theorem QueueGrown.numbered {u v : PortUnit} {k : SlotIx} (grown : QueueGrown u v k) (numbered : u.numbered) :
    v.numbered := by
  rcases grown with ⟨notices, seq⟩ | ⟨n, -, named, notices, seq⟩
  · rw [PortUnit.numbered, notices, seq]; exact numbered
  · have appended := PortUnit.numbered_append numbered named
    rw [PortUnit.numbered] at appended ⊢
    rw [notices, seq]
    exact appended

theorem QueueGrown.countP_ne {u v : PortUnit} {k j : SlotIx} (grown : QueueGrown u v k) (other : j ≠ k) :
    (v.notices.countP fun n => n.slot == j) = u.notices.countP fun n => n.slot == j := by
  rcases grown with ⟨notices, -⟩ | ⟨n, names, -, notices, -⟩
  · rw [notices]
  · rw [notices, List.countP_append]
    simp [names, Ne.symm other]

/-- The record of an index is replaced, and with it the claim of one port and that claim's slot; the queue of the
port may take a notice that names the slot. -/
structure ClaimReplaced (s t : State) (i : RecIx) (p : Port) (k : SlotIx) (old new : Record) (sl : Slot) : Prop where
  stands : s.record i = some old ∨ s.record i = none ∧ old = Record.fresh old.key ∧
    ∀ j r, s.record j = some r → r.key ≠ old.key
  key : new.key = old.key
  record : ∀ j, t.record j = if j = i then some new else s.record j
  slot : ∀ q j, t.slot q j = if q = p ∧ j = k then sl else s.slot q j
  attached : ∀ q, (t.port q).attached = (s.port q).attached
  present : (s.port p).attached = true
  queue : QueueGrown (s.port p) (t.port p) k
  queue_ne : ∀ q, q ≠ p → (t.port q).notices = (s.port q).notices ∧ (t.port q).seq = (s.port q).seq
  shape : new.InShape
  mine : ∀ j sl', new.claims p j sl' → j = k ∧ sl' = sl
  was : ∀ j sl', old.claims p j sl' → j = k
  others : ∀ q, q ≠ p → ∀ j sl', new.claims q j sl' ↔ old.claims q j sl'
  claimed : ∀ key, sl.claimKey = some key → new.claims p k sl
  owned : s.slot p k = .free ∨ old.claims p k (s.slot p k)
  named : sl.allows (t.noticesNaming p k)

theorem Record.not_claims_fresh (key : Word) (p : Port) (k : SlotIx) (sl : Slot) :
    ¬(Record.fresh key).claims p k sl := by
  rintro (⟨h, held, -⟩ | ⟨w, mem, -⟩)
  · rw [Record.holder_fresh] at held; cases held
  · rw [Record.waiters_fresh] at mem; cases mem

section
variable {s t : State} {i : RecIx} {p : Port} {k : SlotIx} {old new : Record} {sl : Slot}

/-- A claim of the record that is replaced was a claim that stood. -/
theorem ClaimReplaced.old_stands (replaced : ClaimReplaced s t i p k old new sl) {q : Port} {j : SlotIx} {sl' : Slot}
    (claims : old.claims q j sl') : s.record i = some old := by
  rcases replaced.stands with stands | ⟨-, fresh, -⟩
  · exact stands
  · rw [fresh] at claims
    exact (Record.not_claims_fresh _ _ _ _ claims).elim

/-- No other record has the key. -/
theorem ClaimReplaced.key_alone (replaced : ClaimReplaced s t i p k old new sl) (inv : ClaimsInv s) {j : RecIx}
    {r : Record} (stands : s.record j = some r) (same : r.key = old.key) : j = i := by
  rcases replaced.stands with own | ⟨-, -, unused⟩
  · exact inv.keys j i r old stands own same
  · exact absurd same (unused j r stands)

theorem ClaimReplaced.claimsInv (replaced : ClaimReplaced s t i p k old new sl) (inv : ClaimsInv s) : ClaimsInv t := by
  have record_ne : ∀ {j r}, t.record j = some r → j ≠ i → s.record j = some r := fun {j r} stands other => by
    rw [replaced.record, if_neg other] at stands; exact stands
  have record_eq : ∀ {r}, t.record i = some r → r = new := fun {r} stands => by
    rw [replaced.record, if_pos rfl] at stands; exact (Option.some.inj stands).symm
  have named_other : ∀ q j, ¬(q = p ∧ j = k) → t.noticesNaming q j = s.noticesNaming q j := by
    intro q j other
    unfold State.noticesNaming
    by_cases port : q = p
    · subst port
      exact replaced.queue.countP_ne fun slot => other ⟨rfl, slot⟩
    · rw [(replaced.queue_ne q port).1]
  constructor
  case shape =>
    intro j r stands
    by_cases here : j = i
    · subst here; rw [record_eq stands]; exact replaced.shape
    · exact inv.shape j r (record_ne stands here)
  case keys =>
    intro j j' r r' stands stands' same
    by_cases here : j = i <;> by_cases here' : j' = i
    · rw [here, here']
    · subst here
      rw [record_eq stands, replaced.key] at same
      exact (replaced.key_alone inv (record_ne stands' here') same.symm).symm
    · subst here'
      rw [record_eq stands', replaced.key] at same
      exact replaced.key_alone inv (record_ne stands here) same
    · exact inv.keys j j' r r' (record_ne stands here) (record_ne stands' here') same
  case accounted =>
    intro j r stands q j' sl' claims
    rw [replaced.attached, replaced.slot]
    by_cases here : j = i
    · subst here
      rw [record_eq stands] at claims
      by_cases port : q = p
      · subst port
        obtain ⟨slot, state⟩ := replaced.mine j' sl' claims
        rw [if_pos ⟨rfl, slot⟩]
        exact ⟨replaced.present, state.symm⟩
      · have before := (replaced.others q port j' sl').mp claims
        rw [if_neg fun h => port h.1]
        exact inv.accounted j old (replaced.old_stands before) q j' sl' before
    · have stood := record_ne stands here
      obtain ⟨attached, state⟩ := inv.accounted j r stood q j' sl' claims
      refine ⟨attached, ?_⟩
      rw [if_neg, state]
      rintro ⟨rfl, rfl⟩
      have key := Record.claims_key claims
      rw [← state] at key
      rcases replaced.owned with free | owned
      · rw [free] at key; cases key
      · rw [Record.claims_key owned] at key
        exact here (replaced.key_alone inv stood (Option.some.inj key).symm)
  case claimed =>
    intro q j key claim
    rw [replaced.slot] at claim ⊢
    by_cases here : q = p ∧ j = k
    · rw [if_pos here] at claim ⊢
      obtain ⟨rfl, rfl⟩ := here
      exact ⟨i, new, (replaced.record i).trans (if_pos rfl), replaced.claimed key claim⟩
    · rw [if_neg here] at claim ⊢
      obtain ⟨j', r, stands, claims⟩ := inv.claimed q j key claim
      by_cases index : j' = i
      · subst index
        have own : r = old := by
          rcases replaced.stands with own | ⟨unused, -⟩
          · exact Option.some.inj (stands.symm.trans own)
          · rw [unused] at stands; cases stands
        subst own
        have port : q ≠ p := by
          rintro rfl
          exact here ⟨rfl, replaced.was j _ claims⟩
        exact ⟨j', new, (replaced.record j').trans (if_pos rfl), (replaced.others q port j _).mpr claims⟩
      · exact ⟨j', r, (replaced.record j').trans (by rw [if_neg index, stands]), claims⟩
  case named =>
    intro q j
    rw [replaced.slot]
    by_cases here : q = p ∧ j = k
    · rw [if_pos here, here.1, here.2]; exact replaced.named
    · rw [if_neg here, named_other q j here]; exact inv.named q j
  case numbered =>
    intro q
    by_cases port : q = p
    · rw [port]; exact replaced.queue.numbered (inv.numbered p)
    · obtain ⟨notices, seq⟩ := replaced.queue_ne q port
      rw [PortUnit.numbered, notices, seq]
      exact inv.numbered q
  case detached =>
    intro q detached
    rw [replaced.attached] at detached
    have port : q ≠ p := by
      rintro rfl
      rw [replaced.present] at detached
      cases detached
    obtain ⟨free, empty⟩ := inv.detached q detached
    refine ⟨fun j => ?_, ?_⟩
    · rw [replaced.slot, if_neg fun h => port h.1]; exact free j
    · rw [(replaced.queue_ne q port).1]; exact empty

end

end Sys2Proof.Machine
end

section
/-! Every change of the claim engine keeps the claim table: each that concerns one claim as a claim replaced, the
removal of a port's claims, and the session changes. -/

namespace Sys2Proof.Machine

/-! ### One claim for each port of a record -/

section
variable {r : Record}

theorem Record.claims_of_holder_unique (single : r.onePerPort) {p : Port} {h : Holding} (held : r.holder p = some h)
    {j : SlotIx} {sl : Slot} (claims : r.claims p j sl) : j = h.slot ∧ sl = h.slotState r.key := by
  rcases claims with ⟨h', held', rfl, rfl⟩ | ⟨w, mem, port, -⟩
  · cases held.symm.trans held'; exact ⟨rfl, rfl⟩
  · have unheld := single.2 w mem
    rw [port, held] at unheld
    cases unheld

theorem Record.claims_of_waiter_unique (single : r.onePerPort) {w : Waiter} (mem : w ∈ r.waiters) {j : SlotIx}
    {sl : Slot} (claims : r.claims w.port j sl) : j = w.slot ∧ sl = w.slotState r.key := by
  rcases claims with ⟨h, held, -⟩ | ⟨v, mem', port, rfl, rfl⟩
  · rw [single.2 w mem] at held; cases held
  · rw [List.inj_on_of_nodup_map single.1 mem' mem port]
    exact ⟨rfl, rfl⟩

theorem Record.not_claims {p : Port} (unheld : r.holder p = none) (unwaiting : r.waiter p = none) {j : SlotIx}
    {sl : Slot} : ¬r.claims p j sl := by
  rintro (⟨h, held, -⟩ | ⟨w, mem, port, -⟩)
  · rw [unheld] at held; cases held
  · exact (r.waiter_none_iff p).mp unwaiting w mem port

/-- The claims of a port that the change of a record leaves alone. -/
theorem Record.claims_iff_of_same {r' : Record} {q : Port} (key : r'.key = r.key) (holder : r'.holder q = r.holder q)
    (waiters : ∀ w, w.port = q → (w ∈ r'.waiters ↔ w ∈ r.waiters)) (j : SlotIx) (sl : Slot) :
    r'.claims q j sl ↔ r.claims q j sl := by
  unfold Record.claims
  rw [key, holder]
  refine or_congr_right (exists_congr fun w => ?_)
  constructor
  · rintro ⟨mem, port, rest⟩; exact ⟨(waiters w port).mp mem, port, rest⟩
  · rintro ⟨mem, port, rest⟩; exact ⟨(waiters w port).mpr mem, port, rest⟩

/-! ### The shape of a record behind each change -/

theorem Record.InShape.fresh {key : Word} (nonzero : key ≠ 0#32) : (Record.fresh key).InShape := by
  refine ⟨nonzero, ⟨List.nodup_nil, fun w mem => ?_⟩, fun p h held => ?_, fun w mem => ?_⟩
  · cases mem
  · rw [Record.holder_fresh] at held; cases held
  · cases mem

theorem Record.InShape.withHolder (shape : r.InShape) {p : Port} {h : Holding} (compatible : r.compatible h.mode = true)
    {waiters : List Waiter} (single : (({ r with waiters := waiters } : Record).setHolder p (some h)).onePerPort)
    (queued : ∀ w ∈ waiters.tail, w.state = .queued) :
    (({ r with waiters := waiters } : Record).setHolder p (some h)).InShape := by
  refine ⟨shape.key, single, fun q h' held exclusive x other => ?_, queued⟩
  rw [Record.holder_setHolder] at held ⊢
  split at held
  · rename_i mine
    cases held
    rw [if_neg (mine ▸ other)]
    exact ((Record.compatible_iff r h.mode).mp compatible).1 exclusive x
  · have blocked := Record.compatible_of_exclusive held exclusive h.mode
    change r.compatible h.mode = false at blocked
    rw [compatible] at blocked
    cases blocked

theorem Record.InShape.withoutHolder (shape : r.InShape) (p : Port) : (r.setHolder p none).InShape := by
  refine ⟨shape.key, ⟨shape.onePerPort.1, fun w mem => ?_⟩, fun q h held exclusive x other => ?_, shape.reservedHead⟩
  · rw [Record.holder_setHolder]
    split
    · rfl
    · exact shape.onePerPort.2 w mem
  · rw [Record.holder_setHolder] at held ⊢
    split at held
    · cases held
    · split
      · rfl
      · exact shape.alone q h held exclusive x other

theorem tail_filter_subset {α : Type} (l : List α) (f : α → Bool) : ∀ a ∈ (l.filter f).tail, a ∈ l.tail := by
  cases l with
  | nil => intro a mem; cases mem
  | cons x rest =>
    intro a mem
    rw [List.filter_cons] at mem
    split at mem
    · exact List.mem_of_mem_filter mem
    · exact List.mem_of_mem_filter (List.mem_of_mem_tail mem)

theorem Record.InShape.dropWaiter (shape : r.InShape) (p : Port) : (r.dropWaiter p).InShape := by
  refine ⟨shape.key, ⟨shape.onePerPort.1.sublist (List.filter_sublist.map _), fun w mem => ?_⟩, shape.alone,
    fun w mem => shape.reservedHead w (tail_filter_subset _ _ w mem)⟩
  exact shape.onePerPort.2 w (List.mem_of_mem_filter mem)

theorem Record.InShape.without (shape : r.InShape) (p : Port) : (r.without p).InShape :=
  (shape.withoutHolder p).dropWaiter p

theorem Record.InShape.reserveHead {w : Waiter} {rest : List Waiter} (shape : r.InShape)
    (waits : r.waiters = w :: rest) : (r.reservedHead w rest).InShape := by
  refine ⟨shape.key, Record.setHead_onePerPort shape.onePerPort waits rfl, shape.alone, fun v mem => ?_⟩
  refine shape.reservedHead v ?_
  rw [waits]
  exact mem

theorem Record.InShape.enqueued (shape : r.InShape) {w : Waiter} (unheld : r.holder w.port = none)
    (unwaiting : r.waiter w.port = none) (state : r.waiters ≠ [] → w.state = .queued) :
    ({ r with waiters := r.waiters ++ [w] } : Record).InShape := by
  refine ⟨shape.key, ⟨?_, fun v mem => ?_⟩, shape.alone, fun v mem => ?_⟩
  · show ((r.waiters ++ [w]).map fun w => w.port).Nodup
    rw [List.map_append, List.nodup_append]
    refine ⟨shape.onePerPort.1, by simp, fun a mem b mem' => ?_⟩
    obtain ⟨v, waits, rfl⟩ := List.mem_map.mp mem
    rw [List.map_singleton, List.mem_singleton] at mem'
    rw [mem']
    exact (r.waiter_none_iff w.port).mp unwaiting v waits
  · rcases List.mem_append.mp mem with mem | mem
    · exact shape.onePerPort.2 v mem
    · rw [List.mem_singleton.mp mem]; exact unheld
  · have first : ∀ l : List Waiter, v ∈ (l ++ [w]).tail → v ∈ l.tail ∨ l ≠ [] ∧ v = w := by
      intro l mem
      cases l with
      | nil => cases mem
      | cons x rest =>
        rcases List.mem_append.mp (show v ∈ rest ++ [w] from mem) with mem | mem
        · exact Or.inl mem
        · exact Or.inr ⟨by simp, List.mem_singleton.mp mem⟩
    rcases first r.waiters mem with mem | ⟨nonempty, rfl⟩
    · exact shape.reservedHead v mem
    · exact state nonempty

end

/-! ### The notices that name a slot -/

section
variable {s t : State} {p : Port} {k : SlotIx}

theorem State.noticesNaming_of_same (notices : (t.port p).notices = (s.port p).notices) :
    t.noticesNaming p k = s.noticesNaming p k := by rw [State.noticesNaming, State.noticesNaming, notices]

theorem State.noticesNaming_of_append {n : Notice} (names : n.slot = k)
    (notices : (t.port p).notices = (s.port p).notices ++ [n]) : t.noticesNaming p k = s.noticesNaming p k + 1 := by
  rw [State.noticesNaming, State.noticesNaming, notices, List.countP_append]
  simp [names]

theorem ClaimsInv.named_of_waiter (inv : ClaimsInv s) {i : RecIx} {r : Record} (stands : s.record i = some r)
    {w : Waiter} (mem : w ∈ r.waiters) : s.noticesNaming w.port w.slot = 0 := by
  have named := inv.named w.port w.slot
  rw [(inv.accounted i r stands _ _ _ (Record.claims_of_waiter mem)).2] at named
  unfold Waiter.slotState at named
  split at named <;> exact named

theorem ClaimsInv.named_of_holder (inv : ClaimsInv s) {i : RecIx} {r : Record} (stands : s.record i = some r)
    {h : Holding} (held : r.holder p = some h) : s.noticesNaming p h.slot ≤ 1 := by
  have named := inv.named p h.slot
  rw [(inv.accounted i r stands _ _ _ (Record.claims_of_holder held)).2] at named
  exact named

theorem ClaimsInv.named_of_free (inv : ClaimsInv s) (free : s.slot p k = .free) : s.noticesNaming p k = 0 := by
  have named := inv.named p k
  rw [free] at named
  exact named

/-- The slot of a claim that stands is the claim's. -/
theorem ClaimsInv.owned (inv : ClaimsInv s) {i : RecIx} {r : Record} (stands : s.record i = some r) {sl : Slot}
    (claims : r.claims p k sl) : s.slot p k = .free ∨ r.claims p k (s.slot p k) :=
  Or.inr ((inv.accounted i r stands p k sl claims).2.symm ▸ claims)

end

/-! ### The claims replaced, move by move -/

section
variable {s : State} (inv : ClaimsInv s)
include inv

theorem ClaimsInv.grantHead {i : RecIx} {r : Record} {w : Waiter} {rest : List Waiter}
    (stands : s.record i = some r) (waits : r.waiters = w :: rest) (admissible : s.admissible r w.mode = true) :
    ClaimsInv (s.grantHead i r w rest) := by
  have shape := inv.shape i r stands
  have mem : w ∈ r.waiters := by rw [waits]; simp
  have claims := Record.claims_of_waiter mem
  have ports := s.grantHead_port i r w rest
  have notices : ((s.grantHead i r w rest).port w.port).notices = (s.port w.port).notices ++
      [⟨(s.port w.port).seq, .granted, r.key, w.slot, s.tok.G, .none, s.now⟩] := by rw [ports, if_pos rfl]
  obtain ⟨behind, -, -, -⟩ := Record.onePerPort_cons shape.onePerPort waits
  have granted : (r.granted w rest s.tok.G (s.now + w.lease.setWidth 32)).InShape := by
    refine shape.withHolder (h := ⟨w.mode, s.tok.G, s.now + w.lease.setWidth 32, w.slot⟩)
      ((s.admissible_iff r w.mode).mp admissible).1 (Record.granted_onePerPort shape.onePerPort waits _ _)
      fun v mem => shape.reservedHead v ?_
    rw [waits]
    exact List.mem_of_mem_tail mem
  have holds : (r.granted w rest s.tok.G (s.now + w.lease.setWidth 32)).holder w.port =
      some ⟨w.mode, s.tok.G, s.now + w.lease.setWidth 32, w.slot⟩ := by
    rw [Record.holder_granted, if_pos rfl]
  refine ClaimReplaced.claimsInv (p := w.port) (k := w.slot) (old := r)
    (new := r.granted w rest s.tok.G (s.now + w.lease.setWidth 32))
    (sl := .holding r.key w.mode s.tok.G (s.now + w.lease.setWidth 32))
    ⟨Or.inl stands, rfl, fun j => s.grantHead_record i j r w rest, s.grantHead_slot i r w rest, fun q => ?attached,
      (inv.accounted i r stands _ _ _ claims).1, Or.inr ⟨_, rfl, rfl, notices, by rw [ports, if_pos rfl]⟩,
      fun q other => ?queue, granted, fun j sl' => Record.claims_of_holder_unique granted.onePerPort holds,
      fun j sl' claims' => (Record.claims_of_waiter_unique shape.onePerPort mem claims').1, fun q other => ?others,
      fun key _ => Record.claims_of_holder holds, inv.owned stands claims, ?named⟩ inv
  case attached => rw [ports]; split <;> rfl
  case queue => rw [ports, if_neg other]; exact ⟨rfl, rfl⟩
  case others =>
    refine Record.claims_iff_of_same rfl ?_ fun v port => ?_
    · rw [Record.holder_granted, if_neg other]
    · show v ∈ rest ↔ _
      rw [waits, List.mem_cons]
      exact ⟨Or.inr, fun either => either.resolve_left fun same => other (port.symm.trans (congrArg Waiter.port same))⟩
  case named =>
    rw [State.noticesNaming_of_append (n := ⟨_, .granted, r.key, w.slot, s.tok.G, .none, s.now⟩) rfl notices,
      inv.named_of_waiter stands mem]
    exact Nat.le_refl 1

theorem ClaimsInv.markReserved {i : RecIx} {r : Record} {w : Waiter} {rest : List Waiter}
    (stands : s.record i = some r) (waits : r.waiters = w :: rest) : ClaimsInv (s.markReserved i r w rest) := by
  have shape := inv.shape i r stands
  have mem : w ∈ r.waiters := by rw [waits]; simp
  have claims := Record.claims_of_waiter mem
  obtain ⟨attached, slot⟩ := inv.accounted i r stands _ _ _ claims
  cases compatible : r.compatible w.mode with
  | false =>
    have same : s.markReserved i r w rest = s := by simp [State.markReserved, compatible]
    rw [same]
    exact inv
  | true =>
    have reserved := shape.reserveHead waits
    have mem' : ({ w with state := .reserved } : Waiter) ∈ (r.reservedHead w rest).waiters := List.mem_cons_self
    refine ClaimReplaced.claimsInv (p := w.port) (k := w.slot) (old := r) (new := r.reservedHead w rest)
      (sl := ({ w with state := .reserved } : Waiter).slotState r.key)
      ⟨Or.inl stands, rfl, fun j => ?record, fun q j => ?slot, fun q => by rw [State.markReserved_port],
        attached, Or.inl (by rw [State.markReserved_port]; exact ⟨rfl, rfl⟩),
        fun q _ => by rw [State.markReserved_port]; exact ⟨rfl, rfl⟩, reserved,
        fun j sl' => Record.claims_of_waiter_unique reserved.onePerPort mem',
        fun j sl' claims' => (Record.claims_of_waiter_unique shape.onePerPort mem claims').1, fun q other => ?others,
        fun key _ => Record.claims_of_waiter mem', inv.owned stands claims, ?named⟩ inv
    case record => rw [State.markReserved_record stands waits]; simp [compatible]
    case slot => rw [State.markReserved_slot fun _ => slot]; simp [compatible]
    case others =>
      refine Record.claims_iff_of_same rfl rfl fun v port => ?_
      show v ∈ { w with state := WaiterState.reserved } :: rest ↔ _
      rw [waits, List.mem_cons, List.mem_cons]
      refine or_congr_left (iff_of_false ?_ ?_)
      all_goals
        rintro rfl
        exact other port.symm
    case named =>
      rw [State.noticesNaming_of_same (s := s) (t := s.markReserved i r w rest) (by rw [State.markReserved_port]),
        inv.named_of_waiter stands mem]
      rfl

theorem ClaimsInv.retire (i : RecIx) : ClaimsInv (s.retire i) := by
  cases stands : s.record i with
  | none =>
    have same : s.retire i = s := State.retire_of_nonempty fun r found => by rw [stands] at found; cases found
    rw [same]; exact inv
  | some r =>
    rw [State.retire_eq s i stands]
    split
    · rename_i empty
      obtain ⟨unheld, unwaiting⟩ := (Record.isEmpty_iff r).mp empty
      have no_claims : ∀ q j sl, ¬r.claims q j sl := fun q j sl =>
        Record.not_claims (unheld q) ((r.waiter_none_iff q).mpr fun w mem => by rw [unwaiting] at mem; cases mem)
      have stood : ∀ {j r'}, (s.setRecord i none).record j = some r' → s.record j = some r' := by
        intro j r' found
        rw [State.record_setRecord] at found
        split at found
        · cases found
        · exact found
      refine ⟨fun j r' found => inv.shape j r' (stood found),
        fun j j' r' r'' found found' => inv.keys j j' r' r'' (stood found) (stood found'),
        fun j r' found => inv.accounted j r' (stood found), fun q j key claim => ?_, inv.named, inv.numbered,
        inv.detached⟩
      obtain ⟨j', r', found, claims⟩ := inv.claimed q j key claim
      refine ⟨j', r', ?_, claims⟩
      rw [State.record_setRecord, if_neg, found]
      rintro rfl
      cases stands.symm.trans found
      exact no_claims _ _ _ claims
    · exact inv

theorem ClaimsInv.endHolding {i : RecIx} {r : Record} {p : Port} {h : Holding} (cause : Option NoticeKind)
    (stands : s.record i = some r) (held : r.holder p = some h) : ClaimsInv (s.endHolding i r p h cause) := by
  have shape := inv.shape i r stands
  have claims := Record.claims_of_holder held
  have ended := shape.withoutHolder p
  have unwaiting : (r.setHolder p none).waiter p = none := by
    refine (Record.waiter_none_iff _ _).mpr fun w mem port => ?_
    have unheld := shape.onePerPort.2 w mem
    rw [port, held] at unheld
    cases unheld
  have unheld : (r.setHolder p none).holder p = none := by rw [Record.holder_setHolder, if_pos rfl]
  have named := inv.named_of_holder stands held
  refine ClaimReplaced.claimsInv (p := p) (k := h.slot) (old := r) (new := r.setHolder p none)
    ⟨Or.inl stands, rfl, fun j => s.endHolding_record i j r p h cause, fun q j => s.endHolding_slot i r p q j h cause,
      fun q => ?attached, (inv.accounted i r stands _ _ _ claims).1, ?queue, fun q other => ?queue_ne, ended,
      fun j sl' claims' => absurd claims' (Record.not_claims unheld unwaiting),
      fun j sl' claims' => (Record.claims_of_holder_unique shape.onePerPort held claims').1,
      fun q other => Record.claims_iff_of_same rfl (by rw [Record.holder_setHolder, if_neg other]) fun _ _ => Iff.rfl,
      fun key claim => ?claimed, inv.owned stands claims, ?named⟩ inv
  case attached =>
    rw [State.endHolding_port]
    cases cause with
    | none => rfl
    | some kind => dsimp only; split <;> [(rename_i same; rw [same]); rfl]
  case queue =>
    cases cause with
    | none => exact Or.inl (by rw [State.endHolding_port]; exact ⟨rfl, rfl⟩)
    | some kind =>
      refine Or.inr ⟨⟨(s.port p).seq, kind, r.key, h.slot, h.token, .none, s.now⟩, rfl, rfl, ?_, ?_⟩
      · rw [State.endHolding_port]; simp
      · rw [State.endHolding_port]; simp
  case queue_ne =>
    rw [State.endHolding_port]
    cases cause with
    | none => exact ⟨rfl, rfl⟩
    | some kind => dsimp only; rw [if_neg other]; exact ⟨rfl, rfl⟩
  case claimed => split at claim <;> cases claim
  case named =>
    cases cause with
    | none =>
      rw [State.noticesNaming_of_same (s := s) (t := s.endHolding i r p h none) (by rw [State.endHolding_port])]
      by_cases zero : s.noticesNaming p h.slot = 0
      · rw [if_pos ⟨rfl, zero⟩]; exact zero
      · rw [if_neg fun free => zero free.2]
        exact ⟨Nat.one_le_iff_ne_zero.mpr zero, named.trans (by decide)⟩
    | some kind =>
      rw [State.noticesNaming_of_append (s := s) (t := s.endHolding i r p h (some kind))
        (n := ⟨(s.port p).seq, kind, r.key, h.slot, h.token, .none, s.now⟩) rfl
        (by rw [State.endHolding_port]; simp), if_neg (by simp)]
      exact ⟨Nat.le_add_left 1 _, Nat.succ_le_succ named⟩

theorem ClaimsInv.dropWaiter {i : RecIx} {r : Record} {w : Waiter} (cause : Option Reason)
    (stands : s.record i = some r) (waiting : r.waiter w.port = some w) :
    ClaimsInv (s.dropWaiter i r w cause) := by
  have shape := inv.shape i r stands
  have mem := Record.waiter_mem waiting
  have claims := Record.claims_of_waiter mem
  have dropped := shape.dropWaiter w.port
  have unwaiting : (r.dropWaiter w.port).waiter w.port = none := by rw [Record.waiter_dropWaiter, if_pos rfl]
  have named := inv.named_of_waiter stands mem
  refine ClaimReplaced.claimsInv (p := w.port) (k := w.slot) (old := r) (new := r.dropWaiter w.port)
    ⟨Or.inl stands, rfl, fun j => s.dropWaiter_record i j r w cause, fun q j => s.dropWaiter_slot i r w cause q j,
      fun q => ?attached, (inv.accounted i r stands _ _ _ claims).1, ?queue, fun q other => ?queue_ne, dropped,
      fun j sl' claims' => absurd claims'
        (Record.not_claims (r := r.dropWaiter w.port) (shape.onePerPort.2 w mem) unwaiting),
      fun j sl' claims' => (Record.claims_of_waiter_unique shape.onePerPort mem claims').1,
      fun q other => Record.claims_iff_of_same rfl rfl fun v port => ?others,
      fun key claim => ?claimed, inv.owned stands claims, ?named⟩ inv
  case others =>
    show v ∈ r.waiters.filter _ ↔ _
    rw [List.mem_filter]
    exact and_iff_left (by simp [port, other])
  case attached =>
    rw [State.dropWaiter_port]
    cases cause with
    | none => rfl
    | some reason => dsimp only; split <;> [(rename_i same; rw [same]); rfl]
  case queue =>
    cases cause with
    | none => exact Or.inl (by rw [State.dropWaiter_port]; exact ⟨rfl, rfl⟩)
    | some reason =>
      refine Or.inr ⟨⟨(s.port w.port).seq, .withdrawn, r.key, w.slot, 0#32, reason, s.now⟩, rfl, rfl, ?_, ?_⟩
      · rw [State.dropWaiter_port]; simp
      · rw [State.dropWaiter_port]; simp
  case queue_ne =>
    rw [State.dropWaiter_port]
    cases cause with
    | none => exact ⟨rfl, rfl⟩
    | some reason => dsimp only; rw [if_neg other]; exact ⟨rfl, rfl⟩
  case claimed => split at claim <;> cases claim
  case named =>
    cases cause with
    | none =>
      rw [State.noticesNaming_of_same (s := s) (t := s.dropWaiter i r w none)
        (by rw [State.dropWaiter_port]), if_pos rfl]
      exact named
    | some reason =>
      rw [State.noticesNaming_of_append (s := s) (t := s.dropWaiter i r w (some reason))
        (n := ⟨(s.port w.port).seq, .withdrawn, r.key, w.slot, 0#32, reason, s.now⟩) rfl
        (by rw [State.dropWaiter_port]; simp), if_neg (by simp), named]
      exact ⟨Nat.le_refl 1, by decide⟩

omit inv in
theorem Place.Fits.shape {p : Port} {pl : Place} (fits : pl.Fits s p) (inv : ClaimsInv s) : pl.record.InShape := by
  rcases fits.stands with stands | ⟨-, fresh, -⟩
  · exact inv.shape _ _ stands
  · rw [fresh]; exact .fresh fits.key

theorem ClaimsInv.grantAtOnce {p : Port} {pl : Place} {mode : Mode} (lease : Half) (fits : pl.Fits s p)
    (noWaiters : pl.record.waiters = []) (admissible : s.admissible pl.record mode = true) :
    ClaimsInv (s.grantAtOnce p pl mode lease).st := by
  have shape := fits.shape inv
  let h : Holding := ⟨mode, s.tok.G, s.now + lease.setWidth 32, pl.slot⟩
  have single : (pl.record.setHolder p (some h)).onePerPort := by
    refine ⟨shape.onePerPort.1, fun w mem => ?_⟩
    rw [Record.setHolder_waiters, noWaiters] at mem
    cases mem
  have held : (pl.record.setHolder p (some h)).holder p = some h := by rw [Record.holder_setHolder, if_pos rfl]
  have granted : (pl.record.setHolder p (some h)).InShape :=
    shape.withHolder (h := h) (waiters := pl.record.waiters) ((s.admissible_iff _ mode).mp admissible).1 single
      shape.reservedHead
  refine ClaimReplaced.claimsInv (p := p) (k := pl.slot) (old := pl.record) (new := pl.record.setHolder p (some h))
    ⟨fits.stands, rfl, s.grantAtOnce_record p pl mode lease, s.grantAtOnce_slot p pl mode lease,
      fun q => by rw [State.grantAtOnce_port], fits.attached, Or.inl (by rw [State.grantAtOnce_port]; exact ⟨rfl, rfl⟩),
      fun q _ => by rw [State.grantAtOnce_port]; exact ⟨rfl, rfl⟩, granted,
      fun j sl' => Record.claims_of_holder_unique single held,
      fun j sl' claims => absurd claims (Record.not_claims fits.unheld fits.unwaiting),
      fun q other => Record.claims_iff_of_same rfl (by rw [Record.holder_setHolder, if_neg other]) fun _ _ => Iff.rfl,
      fun key _ => Record.claims_of_holder held, Or.inl fits.slot, ?_⟩ inv
  rw [State.noticesNaming_of_same (s := s) (t := (s.grantAtOnce p pl mode lease).st) (by rw [State.grantAtOnce_port]),
    inv.named_of_free fits.slot]
  exact Nat.zero_le 1

theorem ClaimsInv.enqueue {p : Port} {pl : Place} (mode : Mode) (lease wait : Half) (fits : pl.Fits s p) :
    ClaimsInv (s.enqueue p pl mode lease wait).st := by
  have shape := fits.shape inv
  let w := s.newEntry p pl mode lease wait
  let new : Record := { pl.record with waiters := pl.record.waiters ++ [w] }
  have mem : w ∈ new.waiters := List.mem_append_right _ (List.mem_singleton_self w)
  have enqueued : new.InShape := shape.enqueued fits.unheld fits.unwaiting fun nonempty => by
    show (if pl.record.waiters.isEmpty && pl.record.compatible mode then WaiterState.reserved else .queued) = _
    rw [if_neg]
    simp [nonempty]
  refine ClaimReplaced.claimsInv (p := p) (k := pl.slot) (old := pl.record) (new := new)
    ⟨fits.stands, rfl, s.enqueue_record p pl mode lease wait, s.enqueue_slot p pl mode lease wait,
      fun q => by rw [State.enqueue_port], fits.attached, Or.inl (by rw [State.enqueue_port]; exact ⟨rfl, rfl⟩),
      fun q _ => by rw [State.enqueue_port]; exact ⟨rfl, rfl⟩, enqueued,
      fun j sl' => Record.claims_of_waiter_unique (w := w) enqueued.onePerPort mem,
      fun j sl' claims => absurd claims (Record.not_claims fits.unheld fits.unwaiting),
      fun q other => Record.claims_iff_of_same rfl rfl fun v port => ?others,
      fun key _ => Record.claims_of_waiter (w := w) mem, Or.inl fits.slot, ?named⟩ inv
  case others =>
    show v ∈ pl.record.waiters ++ [w] ↔ _
    rw [List.mem_append, List.mem_singleton]
    refine or_iff_left fun same => other ?_
    rw [← port, same]
    rfl
  case named =>
    rw [State.noticesNaming_of_same (s := s) (t := (s.enqueue p pl mode lease wait).st)
      (by rw [State.enqueue_port]), inv.named_of_free fits.slot]
    unfold Waiter.slotState
    split <;> rfl

theorem ClaimsInv.moveLease {i : RecIx} {r : Record} {p : Port} {h : Holding} (deadline : Word)
    (stands : s.record i = some r) (held : r.holder p = some h) : ClaimsInv (s.moveLease i r p h deadline) := by
  have shape := inv.shape i r stands
  have claims := Record.claims_of_holder held
  let h' : Holding := { h with deadline := deadline }
  have held' : (r.setHolder p (some h')).holder p = some h' := by rw [Record.holder_setHolder, if_pos rfl]
  have moved : (r.setHolder p (some h')).InShape := by
    refine ⟨shape.key, ⟨shape.onePerPort.1, fun w mem => ?_⟩, fun q g found exclusive x other => ?_,
      shape.reservedHead⟩
    · rw [Record.holder_setHolder, if_neg, shape.onePerPort.2 w mem]
      rintro port
      have unheld := shape.onePerPort.2 w mem
      rw [port, held] at unheld
      cases unheld
    · rw [Record.holder_setHolder] at found ⊢
      have alone : r.holder x = none := by
        split at found
        · rename_i mine
          cases found
          exact shape.alone p h held exclusive x (mine ▸ other)
        · exact shape.alone q g found exclusive x other
      rw [if_neg, alone]
      rintro rfl
      rw [held] at alone
      cases alone
  refine ClaimReplaced.claimsInv (p := p) (k := h.slot) (old := r) (new := r.setHolder p (some h'))
    (sl := .holding r.key h.mode h.token deadline)
    ⟨Or.inl stands, rfl, fun j => s.record_setRecord i j _, fun q j => State.slot_setSlot _ p q h.slot j _,
      fun q => rfl, (inv.accounted i r stands _ _ _ claims).1, Or.inl ⟨rfl, rfl⟩, fun q _ => ⟨rfl, rfl⟩, moved,
      fun j sl' => Record.claims_of_holder_unique moved.onePerPort held',
      fun j sl' claims' => (Record.claims_of_holder_unique shape.onePerPort held claims').1,
      fun q other => Record.claims_iff_of_same rfl (by rw [Record.holder_setHolder, if_neg other]) fun _ _ => Iff.rfl,
      fun key _ => Record.claims_of_holder held', inv.owned stands claims, inv.named_of_holder stands held⟩ inv

/-! ### The oldest notice leaves -/

open Classical in
theorem ClaimsInv.acknowledge {p : Port} {n : Notice} {rest : List Notice}
    (oldest : (s.port p).notices = n :: rest) : ClaimsInv (s.acknowledge p n rest) := by
  let u : State := s.modPort p fun v => { v with notices := rest }
  have ports : ∀ q, u.port q = if q = p then { s.port p with notices := rest } else s.port q :=
    fun q => s.port_modPort p q _
  have named : ∀ q j, s.noticesNaming q j = u.noticesNaming q j + if q = p ∧ n.slot = j then 1 else 0 := by
    intro q j
    rw [State.noticesNaming, State.noticesNaming, ports]
    by_cases port : q = p
    · subst port
      rw [if_pos rfl, oldest, List.countP_cons]
      simp
    · simp [port]
  have slots : ∀ q j, (s.acknowledge p n rest).slot q j =
      if q = p ∧ j = n.slot ∧ u.pinReleased p n.slot then .free else s.slot q j := by
    intro q j
    show (u.settleAcknowledged p n.slot).slot q j = _
    by_cases released : u.pinReleased p n.slot
    · rw [State.settleAcknowledged_of_released released, State.slot_setSlot]
      simp only [released, and_true]
      rfl
    · rw [State.settleAcknowledged_of_kept released]
      simp only [released, and_false, if_false]
      rfl
  have unit : ∀ q, (s.acknowledge p n rest).port q = u.port q := by
    intro q
    show (u.settleAcknowledged p n.slot).port q = _
    by_cases released : u.pinReleased p n.slot
    · rw [State.settleAcknowledged_of_released released]; rfl
    · rw [State.settleAcknowledged_of_kept released]
  have record : ∀ i, (s.acknowledge p n rest).record i = s.record i := by
    intro i
    show (u.settleAcknowledged p n.slot).record i = _
    by_cases released : u.pinReleased p n.slot
    · rw [State.settleAcknowledged_of_released released]; rfl
    · rw [State.settleAcknowledged_of_kept released]; rfl
  have attached : ∀ q, (u.port q).attached = (s.port q).attached := by
    intro q
    rw [ports]
    split
    · rename_i same; rw [same]
    · rfl
  have pinned : ∀ {q j}, q = p ∧ j = n.slot ∧ u.pinReleased p n.slot → (s.slot q j).claimKey = none := by
    rintro q j ⟨rfl, rfl, ⟨key, token, pinned⟩, -⟩
    rw [show s.slot q n.slot = _ from pinned]
    rfl
  constructor
  case shape => simp only [record]; exact inv.shape
  case keys => simp only [record]; exact inv.keys
  case accounted =>
    intro i r stands q j sl claims
    rw [record] at stands
    obtain ⟨present, state⟩ := inv.accounted i r stands q j sl claims
    refine ⟨by rw [unit, attached]; exact present, ?_⟩
    rw [slots, if_neg, state]
    intro released
    have gone := pinned released
    rw [state, Record.claims_key claims] at gone
    cases gone
  case claimed =>
    intro q j key claim
    rw [slots] at claim ⊢
    split at claim
    · cases claim
    · rename_i kept
      rw [if_neg kept]
      simp only [record]
      exact inv.claimed q j key claim
  case named =>
    intro q j
    rw [slots, State.noticesNaming_of_same (s := u) (t := s.acknowledge p n rest) (by rw [unit])]
    have before := inv.named q j
    rw [named] at before
    split
    · rename_i released
      obtain ⟨rfl, rfl, released⟩ := released
      exact (u.noticesNaming_eq_zero_iff q n.slot).mpr released.2
    · rename_i kept
      by_cases here : q = p ∧ n.slot = j
      · obtain ⟨rfl, rfl⟩ := here
        rw [if_pos ⟨rfl, rfl⟩] at before
        unfold Slot.allows at before ⊢
        cases state : s.slot q n.slot with
        | free => rw [state] at before; omega
        | waiting => rw [state] at before; omega
        | reserved => rw [state] at before; omega
        | holding => rw [state] at before; show _ ≤ 1; omega
        | pinned key token =>
          rw [state] at before
          refine ⟨Nat.one_le_iff_ne_zero.mpr fun zero => kept ⟨rfl, rfl, ⟨key, token, state⟩, ?_⟩, by omega⟩
          exact (u.noticesNaming_eq_zero_iff q n.slot).mp zero
      · rw [if_neg here] at before
        exact before
  case numbered =>
    intro q
    rw [unit, ports]
    split
    · exact PortUnit.numbered_tail (inv.numbered p) oldest
    · exact inv.numbered q
  case detached =>
    intro q detached
    rw [unit, attached] at detached
    obtain ⟨free, empty⟩ := inv.detached q detached
    have port : q ≠ p := by
      rintro rfl
      rw [oldest] at empty
      cases empty
    refine ⟨fun j => ?_, ?_⟩
    · rw [slots, if_neg fun h => port h.1]; exact free j
    · rw [unit, ports, if_neg port]; exact empty

/-! ### Sessions -/

omit inv in
theorem Record.claims_without_iff (r : Record) (p q : Port) (j : SlotIx) (sl : Slot) :
    (r.without p).claims q j sl ↔ q ≠ p ∧ r.claims q j sl := by
  by_cases port : q = p
  · subst port
    refine iff_of_false (Record.not_claims ?_ ?_) fun h => h.1 rfl
    · rw [Record.holder_without, if_pos rfl]
    · rw [Record.waiter_without, if_pos rfl]
  · rw [and_iff_right port]
    refine Record.claims_iff_of_same rfl (by rw [Record.holder_without, if_neg port]) (fun w named => ?_) j sl
      (r := r) (r' := r.without p) (q := q)
    rw [Record.waiters_without, List.mem_filter]
    exact and_iff_left (by simp [named, port])

theorem ClaimsInv.tearDownSteps (p : Port) : ClaimsInv (s.tearDownSteps p) := by
  have torn := s.tearDownSteps_torn p
  have stood : ∀ {i r}, (s.tearDownSteps p).record i = some r → ∃ r', s.record i = some r' ∧ r = r'.without p := by
    intro i r stands
    rw [torn.record, Option.map_eq_some_iff] at stands
    obtain ⟨r', stands, rfl⟩ := stands
    exact ⟨r', stands, rfl⟩
  have attached : ∀ q, ((s.tearDownSteps p).port q).attached = (s.port q).attached := by
    intro q
    rw [torn.port]
    split
    · rename_i same; rw [same]
    · rfl
  constructor
  case shape =>
    intro i r stands
    obtain ⟨r', before, rfl⟩ := stood stands
    exact (inv.shape i r' before).without p
  case keys =>
    intro i j r r' stands stands' same
    obtain ⟨r, before, rfl⟩ := stood stands
    obtain ⟨r', before', rfl⟩ := stood stands'
    exact inv.keys i j r r' before before' same
  case accounted =>
    intro i r stands q j sl claims
    obtain ⟨r, before, rfl⟩ := stood stands
    obtain ⟨port, claims⟩ := (Record.claims_without_iff r p q j sl).mp claims
    rw [attached, torn.slot, if_neg port]
    exact inv.accounted i r before q j sl claims
  case claimed =>
    intro q j key claim
    rw [torn.slot] at claim ⊢
    split at claim
    · cases claim
    · rename_i port
      obtain ⟨i, r, stands, claims⟩ := inv.claimed q j key claim
      rw [if_neg port]
      exact ⟨i, r.without p, by rw [torn.record, stands]; rfl,
        (Record.claims_without_iff r p q j _).mpr ⟨port, claims⟩⟩
  case named =>
    intro q j
    rw [torn.slot, State.noticesNaming, torn.port]
    split
    · rfl
    · exact inv.named q j
  case numbered =>
    intro q
    rw [torn.port]
    split
    · exact PortUnit.numbered_nil rfl
    · exact inv.numbered q
  case detached =>
    intro q detached
    rw [attached] at detached
    obtain ⟨free, empty⟩ := inv.detached q detached
    refine ⟨fun j => ?_, ?_⟩
    · rw [torn.slot]; split <;> [rfl; exact free j]
    · rw [torn.port]; split <;> [rfl; exact empty]

/-- A port unit with a new session, or none, where no notice is left and a DETACHED port has no claim. -/
theorem ClaimsInv.setSession {t : State} {p : Port} {u : PortUnit} (same : t.table = s.table ∧ t.slots = s.slots)
    (ports : ∀ q, t.port q = if q = p then u else s.port q) (notices : u.notices = (s.port p).notices)
    (empty : (s.port p).notices = [])
    (free : u.attached = false → ∀ k, s.slot p k = .free) : ClaimsInv t := by
  have record : ∀ i, t.record i = s.record i := fun i => by rw [State.record, State.record, same.1]
  have slot : ∀ q k, t.slot q k = s.slot q k := fun q k => by rw [State.slot, State.slot, same.2]
  have queue : ∀ q, (t.port q).notices = (s.port q).notices := by
    intro q
    rw [ports]
    split
    · rename_i here; rw [here, notices]
    · rfl
  constructor
  case shape => simp only [record]; exact inv.shape
  case keys => simp only [record]; exact inv.keys
  case accounted =>
    intro i r stands q j sl claims
    rw [record] at stands
    obtain ⟨present, state⟩ := inv.accounted i r stands q j sl claims
    rw [slot, ports]
    refine ⟨?_, state⟩
    split
    · rename_i here
      subst here
      by_contra detached
      rw [Bool.not_eq_true] at detached
      have key := Record.claims_key claims
      rw [← state, free detached j] at key
      cases key
    · exact present
  case claimed => simp only [record, slot]; exact inv.claimed
  case named =>
    intro q j
    rw [slot, State.noticesNaming_of_same (queue q)]
    exact inv.named q j
  case numbered =>
    intro q
    by_cases here : q = p
    · subst here; exact PortUnit.numbered_nil ((queue q).trans empty)
    · rw [ports, if_neg here]; exact inv.numbered q
  case detached =>
    intro q detached
    rw [queue]
    simp only [slot]
    rw [ports] at detached
    split at detached
    · rename_i here
      subst here
      exact ⟨free detached, empty⟩
    · exact inv.detached q detached

end

/-! ### Every change -/

theorem ClaimMove.claimsInv {D E : Set RecIx} {s t : State} (move : ClaimMove D E s t) (inv : ClaimsInv s) :
    ClaimsInv t := by
  have same : ∀ {u : State}, u.table = s.table → u.slots = s.slots → u.ports = s.ports → ClaimsInv u :=
    fun table slots ports => inv.of_same (.of_ports table slots ports)
  cases move
  case grantHead i r w rest waits stands admissible => exact inv.grantHead stands waits admissible
  case markReserved i r w rest waits stands blocked => exact inv.markReserved stands waits
  case retire i => exact inv.retire i
  case endHolding i r p h cause held stands => exact inv.endHolding cause stands held
  case dropWaiter i r w cause waiting stands => exact inv.dropWaiter cause stands waiting
  case grantAtOnce p pl mode lease noWaiters fits admissible leaseFits =>
    exact inv.grantAtOnce lease fits noWaiters admissible
  case enqueue p pl mode lease wait waits fits leaseFits waitFits => exact inv.enqueue mode lease wait fits
  case noteDemand =>
    obtain ⟨table, slots, ports, -⟩ := s.noteDemand_same
    exact same table slots ports
  case moveLease i r p h lease held stands leaseFits => exact inv.moveLease _ stands held
  case acknowledge p n rest oldest => exact inv.acknowledge oldest
  case tearDown p => exact inv.tearDownSteps p
  case attach p fresh =>
    refine inv.setSession (t := s.attach p) (p := p) ⟨rfl, rfl⟩ (fun q => State.port_modPort _ p q _) rfl ?_
      fun detached => by cases detached
    rcases fresh with detached | empty
    · exact (inv.detached p detached).2
    · exact empty
  case detach p lost free fresh =>
    exact inv.setSession ⟨rfl, rfl⟩ (fun q => s.port_setPort p q _) rfl fresh fun _ => free
  case openGate => exact same rfl rfl rfl

theorem Move.claimsInv {D E : Set RecIx} {s t : State} (move : Move D E s t) (inv : ClaimsInv s) : ClaimsInv t := by
  cases move with
  | claim ready move => exact move.claimsInv inv
  | store move => exact inv.of_same move.claimsSame
  | link move => exact inv.of_same move.claimsSame

/-! ### No record without an entry -/

theorem State.tidy_of_record {s t : State} {D : Set RecIx} (tidy : s.tidy D) {i : RecIx} {r' : Record}
    (record : ∀ j, t.record j = if j = i then some r' else s.record j) (entry : r'.isEmpty = false ∨ i ∈ D) :
    t.tidy D := by
  intro j outside r stands
  rw [record] at stands
  split at stands
  · rename_i here
    subst here
    cases stands
    exact entry.resolve_right outside
  · exact tidy j outside r stands

theorem State.tidy_of_records {s t : State} {D : Set RecIx} (tidy : s.tidy D)
    (record : ∀ j, t.record j = s.record j) : t.tidy D := by
  intro j outside r stands
  rw [record] at stands
  exact tidy j outside r stands

theorem Record.isEmpty_of_holder {r : Record} {p : Port} {h : Holding} (held : r.holder p = some h) :
    r.isEmpty = false := by
  rw [Bool.eq_false_iff, Ne, Record.isEmpty_iff]
  intro empty
  rw [empty.1 p] at held
  cases held

theorem State.tidy_mono {s : State} {D E : Set RecIx} (tidy : s.tidy D) (sub : D ⊆ E) : s.tidy E :=
  fun i outside => tidy i fun mem => outside (sub mem)

theorem ClaimMove.tidy {D E : Set RecIx} {s t : State} (move : ClaimMove D E s t) (tidy : s.tidy D) : t.tidy E := by
  cases move
  case grantHead i r w rest waits stands admissible =>
    refine State.tidy_of_record tidy (fun j => s.grantHead_record i j r w rest) (Or.inl ?_)
    exact Record.isEmpty_of_holder (p := w.port) (by rw [Record.holder_granted, if_pos rfl])
  case markReserved i r w rest waits stands blocked =>
    obtain ⟨w', -, -, marked⟩ := State.markReserved_record_self stands waits
    intro j outside r' stands'
    by_cases here : j = i
    · subst here
      cases marked.symm.trans stands'
      exact Record.isEmpty_of_waiters rfl
    · rw [State.markReserved_record stands waits, if_neg fun h => here h.1] at stands'
      exact tidy j outside r' stands'
  case retire i =>
    intro j outside r stands
    by_cases here : j = i
    · subst here; exact (State.retire_record_some stands).2
    · rw [s.retire_record_ne i j here] at stands
      exact tidy j (fun mem => outside ⟨mem, here⟩) r stands
  case endHolding i r p h cause held stands =>
    exact State.tidy_of_record (State.tidy_mono tidy (Set.subset_insert _ _))
      (fun j => s.endHolding_record i j r p h cause) (Or.inr (Set.mem_insert i D))
  case dropWaiter i r w cause waiting stands =>
    exact State.tidy_of_record (State.tidy_mono tidy (Set.subset_insert _ _))
      (fun j => s.dropWaiter_record i j r w cause) (Or.inr (Set.mem_insert i D))
  case grantAtOnce p pl mode lease noWaiters fits admissible leaseFits =>
    refine State.tidy_of_record tidy (s.grantAtOnce_record p pl mode lease) (Or.inl ?_)
    exact Record.isEmpty_of_holder (p := p) (by rw [Record.holder_setHolder, if_pos rfl])
  case enqueue p pl mode lease wait waits fits leaseFits waitFits =>
    refine State.tidy_of_record tidy (s.enqueue_record p pl mode lease wait) (Or.inl ?_)
    rw [Bool.eq_false_iff, Ne, Record.isEmpty_iff]
    simp
  case noteDemand => exact State.tidy_of_records tidy s.noteDemand_same.record
  case moveLease i r p h lease held stands leaseFits =>
    refine State.tidy_of_record tidy (fun j => s.record_setRecord i j _) (Or.inl ?_)
    exact Record.isEmpty_of_holder (p := p) (by rw [Record.holder_setHolder, if_pos rfl])
  case acknowledge p n rest oldest =>
    refine State.tidy_of_records tidy fun j => ?_
    unfold State.acknowledge State.settleAcknowledged
    split
    case h_1 => split <;> rfl
    all_goals rfl
  case tearDown p => exact fun i outside => absurd (Set.mem_univ i) outside
  case attach => exact State.tidy_of_records tidy fun _ => rfl
  case detach => exact State.tidy_of_records tidy fun _ => rfl
  case openGate => exact State.tidy_of_records tidy fun _ => rfl

theorem State.record_of_table {s t : State} (table : t.table = s.table) (i : RecIx) : t.record i = s.record i := by
  rw [State.record, State.record, table]

theorem Work.tidy {D : Set RecIx} {s t : State} (work : Work s D t) (tidy : s.tidy ∅) : t.tidy D := by
  induction work with
  | refl => exact tidy
  | tail _ move ih =>
    cases move with
    | claim _ move => exact move.tidy ih
    | store move => exact State.tidy_of_records ih (State.record_of_table move.only.table)
    | link move => exact State.tidy_of_records ih (State.record_of_table move.only.table)
  | weaken _ sub ih => exact State.tidy_mono ih sub

/-! ### Every row -/

theorem Outside.claimsSame {s t : State} (outside : Outside s t) : ClaimsSame s t :=
  .of_ports (by rw [outside.same]) (by rw [outside.same]) (by rw [outside.same])

theorem ResetBegun.claimsInv {s t : State} (begun : ResetBegun s t) : ClaimsInv t :=
  claimsInv_of_empty begun.cleared.table begun.cleared.slots fun p => by rw [begun.cleared.ports]; rfl

theorem BootSelected.claimsSame {s t : State} (selected : BootSelected s t) : ClaimsSame s t :=
  ⟨selected.table, selected.slots, fun p => by rw [(selected.ports p).1]; exact ⟨rfl, rfl, rfl⟩⟩

theorem StoreOnly.claimsSame {s t : State} (only : StoreOnly s t) : ClaimsSame s t :=
  .of_ports only.table only.slots only.ports

theorem step_claimsInv {s t : State} (row : step s = .next t) (inv : ClaimsInv s) : ClaimsInv t :=
  step_keeps (P := ClaimsInv) (fun move inv => move.claimsInv inv) (fun outside inv => inv.of_same outside.claimsSame)
    (fun begun _ => begun.claimsInv) (fun _ selected inv => inv.of_same selected.claimsSame)
    (fun {s} _ inv => inv.of_same s.endBoot_only.claimsSame)
    (fun _ inv => inv.of_same (.of_ports rfl rfl rfl)) row inv

theorem Bounds.tidy {s t : State} (bounds : Bounds s t) (tidy : s.tidy ∅) : t.tidy ∅ := by
  have empty : ∀ {u : State}, (∀ i, u.record i = none) → u.tidy ∅ := fun {u} gone i _ r stands => by
    rw [gone] at stands; cases stands
  cases bounds with
  | outside change => exact State.tidy_of_records tidy (State.record_of_table change.claimsSame.table)
  | reset change begun => exact empty begun.cleared.table
  | restart change begun selected =>
    exact empty fun i => (State.record_of_table selected.table i).trans (begun.cleared.table i)
  | boot _ change selected =>
    exact State.tidy_of_records tidy (State.record_of_table (selected.table.trans change.claimsSame.table))
  | bootEnd => exact State.tidy_of_records tidy (State.record_of_table s.endBoot_only.table)

theorem RowLeads.tidy {s t : State} (leads : RowLeads s t) (tidy : s.tidy ∅) : t.tidy ∅ := by
  rcases leads with (work | boundary) | ticks
  · exact work.tidy tidy
  · exact boundary.bounds.tidy tidy
  · cases ticks with
    | idle => exact State.tidy_of_records tidy fun _ => rfl
    | tick _ _ work => exact State.tidy_of_records (work.tidy tidy) fun _ => rfl
    | restart _ work runs =>
      exact State.tidy_of_records ((Boundary.restart runs).bounds.tidy (work.tidy tidy)) fun _ => rfl

theorem step_tidy {s t : State} (row : step s = .next t) (tidy : s.tidy ∅) : t.tidy ∅ := by
  unfold step at row
  split at row
  · cases row; exact tidy
  · exact (leads_of_exec row).tidy (State.tidy_of_records tidy fun _ => rfl)

/-- Settles O55: what each claim and each slot say of the other by every change, and no record without an entry by
the retirement behind each removal. -/
theorem claimTableInvariantKept : Obligations.ClaimTableInvariantKept := by
  unfold Obligations.ClaimTableInvariantKept
  intro s t row inv
  obtain ⟨claims, tidy⟩ := (claimTableInv_iff s).mp inv
  exact (claimTableInv_iff t).mpr ⟨step_claimsInv row claims, step_tidy row tidy⟩

end Sys2Proof.Machine
end

section
/-! The gate along every row: what each change makes of the EXCLUSIVE holdings of a key and of the channel bound
to it, and what start-up selects. -/

namespace Sys2Proof.Machine

/-! ### The images that start-up selects -/

/-- A copy is valid with an image in range, of no shared key, that can be changed or is frozen (R162). -/
theorem copyClass_valid {one two : Row} {seq : Half} {img : Image} (valid : copyClass one two = .valid seq img) :
    img.inRange = true ∧ img.sharedKey = none ∧ img.changeable = true := by
  unfold copyClass at valid
  split at valid
  · cases valid
  · dsimp only at valid
    split at valid
    · rename_i good
      simp only [Bool.and_eq_true, Option.isNone_iff_eq_none] at good
      obtain ⟨⟨⟨-, inRange⟩, unshared⟩, changeable⟩ := good
      cases valid
      exact ⟨inRange, unshared, changeable⟩
    · cases valid
  · cases valid

theorem Image.factoryDefault_inRange : Image.factoryDefault.inRange = true := by
  simp [Image.inRange, Image.port_factoryDefault, Image.chan_factoryDefault]

theorem Image.factoryDefault_sharedKey : Image.factoryDefault.sharedKey = none := by
  simp [Image.sharedKey, Image.chan_factoryDefault]

/-- The image selected is a valid copy's, or the factory defaults. -/
theorem selectConfig_effective (a b : CopyClass) : (∃ seq, a = .valid seq (selectConfig a b).effective) ∨
    (∃ seq, b = .valid seq (selectConfig a b).effective) ∨ (selectConfig a b).effective = Image.factoryDefault := by
  cases a with
  | valid qa ia =>
    cases b with
    | valid qb ib =>
      by_cases lower : qa < qb
      · rw [selectConfig_of_image (a := .valid qa ia) (b := .valid qb ib) (if_pos lower)]
        exact Or.inr (Or.inl ⟨qb, rfl⟩)
      · rw [selectConfig_of_image (a := .valid qa ia) (b := .valid qb ib) (if_neg lower)]; exact Or.inl ⟨qa, rfl⟩
    | blank => exact Or.inl ⟨qa, rfl⟩
    | corrupt => exact Or.inl ⟨qa, rfl⟩
  | blank =>
    cases b with
    | valid qb ib => exact Or.inr (Or.inl ⟨qb, rfl⟩)
    | blank => exact Or.inr (Or.inr rfl)
    | corrupt => exact Or.inr (Or.inr rfl)
  | corrupt =>
    cases b with
    | valid qb ib => exact Or.inr (Or.inl ⟨qb, rfl⟩)
    | blank => exact Or.inr (Or.inr rfl)
    | corrupt => exact Or.inr (Or.inr rfl)

theorem BootSelected.effective_good {s t : State} (selected : BootSelected s t) :
    t.cfg.effective.inRange = true ∧ t.cfg.effective.sharedKey = none := by
  rw [selected.cfg]
  rcases selectConfig_effective (s.copyRowsClass .a) (s.copyRowsClass .b) with ⟨seq, valid⟩ | ⟨seq, valid⟩ | default
  · obtain ⟨inRange, unshared, -⟩ := copyClass_valid valid
    exact ⟨inRange, unshared⟩
  · obtain ⟨inRange, unshared, -⟩ := copyClass_valid valid
    exact ⟨inRange, unshared⟩
  · rw [default]
    exact ⟨Image.factoryDefault_inRange, Image.factoryDefault_sharedKey⟩

/-- Two channels of one bound key are one channel, where no pair shares a key. -/
theorem Image.chan_injective {img : Image} (unshared : img.sharedKey = none) {c d : Channel}
    (bound : (img.chan c).key ≠ 0#32) (same : (img.chan c).key = (img.chan d).key) : c = d := by
  have pairs : ∀ x y : Channel, x < y → (x, y) ∈ channelPairs := by decide
  have apart : ∀ x y : Channel, x < y → (img.chan x).key ≠ 0#32 → (img.chan x).key ≠ (img.chan y).key := by
    intro x y lt nonzero equal
    have unequal := List.find?_eq_none.mp unshared (x, y) (pairs x y lt)
    simp [equal] at unequal
    exact nonzero (equal.trans unequal)
  rcases lt_trichotomy c d with lt | equal | lt
  · exact absurd same (apart c d lt bound)
  · exact equal
  · exact absurd same.symm (apart d c lt (same ▸ bound))

/-- The channel whose key a key is, is the one the key is bound to. -/
theorem State.boundChannel_of_key {s : State} (unshared : s.cfg.effective.sharedKey = none) {ch : Channel}
    (nonzero : (s.cfg.effective.chan ch).key ≠ 0#32) : s.boundChannel (s.cfg.effective.chan ch).key = some ch :=
  State.boundChannel_eq_some_iff.mpr ⟨nonzero, rfl, fun _ before same =>
    absurd (Image.chan_injective unshared (same ▸ nonzero) same) (ne_of_lt before)⟩

/-! ### The EXCLUSIVE holdings of a key -/

/-- The record has an EXCLUSIVE holding. -/
def Record.exclusive (r : Record) : Prop := ∃ p h, r.holder p = some h ∧ h.mode = .exclusive

theorem State.heldExclusive_iff (s : State) (key : Word) :
    s.heldExclusive key ↔ ∃ i r, s.record i = some r ∧ r.key = key ∧ r.exclusive := Iff.rfl

theorem Record.exclusive_of_holders {r r' : Record} (holders : ∀ p, r'.holder p = r.holder p) :
    r'.exclusive ↔ r.exclusive := by
  unfold Record.exclusive
  simp only [holders]

theorem Record.not_exclusive_fresh (key : Word) : ¬(Record.fresh key).exclusive := by
  rintro ⟨p, h, held, -⟩
  rw [Record.holder_fresh] at held
  cases held

/-- A holding given or exchanged. -/
theorem Record.exclusive_setHolder {r : Record} {p : Port} {h : Holding} :
    (r.setHolder p (some h)).exclusive ↔
      h.mode = .exclusive ∨ ∃ q g, q ≠ p ∧ r.holder q = some g ∧ g.mode = .exclusive := by
  constructor
  · rintro ⟨q, g, held, exclusive⟩
    rw [Record.holder_setHolder] at held
    split at held
    · cases held; exact Or.inl exclusive
    · rename_i other; exact Or.inr ⟨q, g, other, held, exclusive⟩
  · rintro (exclusive | ⟨q, g, other, held, exclusive⟩)
    · exact ⟨p, h, by rw [Record.holder_setHolder, if_pos rfl], exclusive⟩
    · exact ⟨q, g, by rw [Record.holder_setHolder, if_neg other, held], exclusive⟩

/-- A SHARED holding given to a port that held nothing. -/
theorem Record.exclusive_setHolder_shared {r : Record} {p : Port} {h : Holding} (unheld : r.holder p = none)
    (shared : h.mode = .shared) : (r.setHolder p (some h)).exclusive ↔ r.exclusive := by
  rw [Record.exclusive_setHolder]
  constructor
  · rintro (exclusive | ⟨q, g, -, held, exclusive⟩)
    · rw [shared] at exclusive; cases exclusive
    · exact ⟨q, g, held, exclusive⟩
  · rintro ⟨q, g, held, exclusive⟩
    refine Or.inr ⟨q, g, ?_, held, exclusive⟩
    rintro rfl
    rw [unheld] at held
    cases held

/-- One index replaced: the EXCLUSIVE holdings of every other key stand. -/
theorem State.heldExclusive_of_record {s t : State} (inv : ClaimsInv s) {i : RecIx} {old new : Record}
    (stands : s.record i = some old ∨ s.record i = none ∧ old = Record.fresh old.key ∧
      ∀ j r, s.record j = some r → r.key ≠ old.key) (key : new.key = old.key)
    (record : ∀ j, t.record j = if j = i then some new else s.record j) (k : Word) :
    (t.heldExclusive k ↔ if k = old.key then new.exclusive else s.heldExclusive k) ∧
      (s.heldExclusive old.key ↔ old.exclusive) := by
  have alone : ∀ {j r}, s.record j = some r → r.key = old.key → j = i ∧ r = old := by
    intro j r found same
    rcases stands with own | ⟨-, -, missing⟩
    · have here := inv.keys j i r old found own same
      subst here
      exact ⟨rfl, Option.some.inj (found.symm.trans own)⟩
    · exact absurd same (missing j r found)
  refine ⟨⟨?_, ?_⟩, ?_, ?_⟩
  · rintro ⟨j, r, found, rfl, exclusive⟩
    rw [Option.mem_def, record] at found
    split at found
    · cases found; rw [if_pos key]; exact exclusive
    · rename_i other
      rw [if_neg fun same => other (alone found same).1]
      exact ⟨j, r, found, rfl, exclusive⟩
  · intro held
    split at held
    · rename_i same
      exact ⟨i, new, (record i).trans (if_pos rfl), key.trans same.symm, held⟩
    · rename_i other
      obtain ⟨j, r, found, rfl, exclusive⟩ := held
      refine ⟨j, r, ?_, rfl, exclusive⟩
      rw [Option.mem_def, record, if_neg]
      · exact found
      · rintro rfl
        rcases stands with own | ⟨missing, -⟩
        · cases own.symm.trans found; exact other rfl
        · rw [Option.mem_def, missing] at found; cases found
  · rintro ⟨j, r, found, same, exclusive⟩
    obtain ⟨-, rfl⟩ := alone found same
    exact exclusive
  · rintro exclusive
    rcases stands with own | ⟨-, fresh, -⟩
    · exact ⟨i, old, own, rfl, exclusive⟩
    · rw [fresh] at exclusive; exact (Record.not_exclusive_fresh _ exclusive).elim

theorem State.heldExclusive_of_records {s t : State} (record : ∀ i, t.record i = s.record i) (k : Word) :
    t.heldExclusive k ↔ s.heldExclusive k := by
  unfold State.heldExclusive
  simp only [record]

/-- One index replaced by a record of the same EXCLUSIVE holdings. -/
theorem State.heldExclusive_of_kept {s t : State} (inv : ClaimsInv s) {i : RecIx} {old new : Record}
    (stands : s.record i = some old ∨ s.record i = none ∧ old = Record.fresh old.key ∧
      ∀ j r, s.record j = some r → r.key ≠ old.key) (key : new.key = old.key)
    (record : ∀ j, t.record j = if j = i then some new else s.record j) (kept : new.exclusive ↔ old.exclusive)
    (k : Word) : t.heldExclusive k ↔ s.heldExclusive k := by
  obtain ⟨after, before⟩ := State.heldExclusive_of_record inv stands key record k
  rw [after]
  split
  · rename_i same; rw [same, before, kept]
  · rfl

/-! ### A channel and the holdings of its key -/

/-- What a move of the claim engine makes of a channel and of the EXCLUSIVE holdings of its key. -/
inductive GateMoved (s t : State) (ch : Channel) : Prop
  | same (same : t.chan ch = s.chan ch) (held : t.heldExclusive (s.chan ch).key ↔ s.heldExclusive (s.chan ch).key)
  | started (idle : (s.chan ch).state = .idle)
      (started : t.chan ch = { s.chan ch with state := if (s.chan ch).ginh then .heldLow else .high })
      (held : t.heldExclusive (s.chan ch).key)
  | ended (ended : t.chan ch = (s.chan ch).ended s.now) (free : ¬t.heldExclusive (s.chan ch).key)
  | opened (guard : (s.chan ch).state = .guard s.now) (opened : t.chan ch = { s.chan ch with state := .idle })
      (held : t.heldExclusive (s.chan ch).key ↔ s.heldExclusive (s.chan ch).key)

/-- The state of a channel says whether its key has an EXCLUSIVE holding (R73). -/
structure GateChannel.Means (c : GateChannel) (held : Prop) : Prop where
  unbound : c.state = .unbound ↔ c.key = 0#32
  held : held ↔ c.state = .high ∨ c.state = .heldLow
  high : c.state = .high → c.ginh = false
  heldLow : c.state = .heldLow → c.ginh = true

theorem GateChannel.Means.congr {c : GateChannel} {held held' : Prop} (means : c.Means held)
    (same : held' ↔ held) : c.Means held' := ⟨means.unbound, same.trans means.held, means.high, means.heldLow⟩

/-- The channels carry the keys of the configuration, and each means what it says. -/
structure GateLaw (s : State) : Prop where
  keys : ∀ ch : Channel, (s.chan ch).key = (s.cfg.effective.chan ch).key
  unshared : s.cfg.effective.sharedKey = none
  means : ∀ ch : Channel, (s.chan ch).Means (s.heldExclusive (s.chan ch).key)

theorem ClaimsInv.not_heldExclusive_zero {s : State} (inv : ClaimsInv s) : ¬s.heldExclusive 0#32 := by
  rintro ⟨i, r, stands, zero, -⟩
  exact (inv.shape i r stands).key zero

theorem gateInv_iff {s : State} (inv : ClaimsInv s) : GateInv s ↔ GateLaw s := by
  constructor
  · rintro ⟨keys, unshared, means⟩
    refine ⟨keys, unshared, fun ch => ?_⟩
    obtain ⟨unbound, idle, guard, high, heldLow⟩ := means ch
    refine ⟨unbound, ⟨fun held => ?_, ?_⟩, fun state => (high state).1, fun state => (heldLow state).1⟩
    · cases state : (s.chan ch).state with
      | unbound =>
        rw [unbound.mp state] at held
        exact (inv.not_heldExclusive_zero held).elim
      | idle => exact (idle state held).elim
      | guard deadline => exact (guard deadline state held).elim
      | high => exact Or.inl rfl
      | heldLow => exact Or.inr rfl
    · rintro (state | state)
      · exact (high state).2
      · exact (heldLow state).2
  · rintro ⟨keys, unshared, means⟩
    refine ⟨keys, unshared, fun ch => ?_⟩
    obtain ⟨unbound, held, high, heldLow⟩ := means ch
    refine ⟨unbound, fun state claim => ?_, fun deadline state claim => ?_,
      fun state => ⟨high state, held.mpr (Or.inl state)⟩, fun state => ⟨heldLow state, held.mpr (Or.inr state)⟩⟩
    · rw [held, state] at claim; simp at claim
    · rw [held, state] at claim; simp at claim

theorem GateChannel.ended_means {c : GateChannel} {now : Word} {held free : Prop} (means : c.Means held)
    (gone : ¬free) : (c.ended now).Means free := by
  unfold GateChannel.ended
  split
  · rename_i high
    have bound : c.key ≠ 0#32 := fun zero => by
      rw [means.unbound.mpr zero] at high
      simp at high
    by_cases zero : c.guard = 0#16
    · rw [if_pos zero]
      exact ⟨by simp [bound], by simp [gone], by simp, by simp⟩
    · rw [if_neg zero]
      exact ⟨by simp [bound], by simp [gone], by simp, by simp⟩
  · rename_i other
    exact ⟨means.unbound, iff_of_false gone other, means.high, means.heldLow⟩

theorem GateMoved.means {s t : State} {ch : Channel} (moved : GateMoved s t ch)
    (means : (s.chan ch).Means (s.heldExclusive (s.chan ch).key)) :
    (t.chan ch).Means (t.heldExclusive (t.chan ch).key) := by
  cases moved with
  | same same held => rw [same]; exact means.congr held
  | started idle started held =>
    have bound : (s.chan ch).key ≠ 0#32 := fun zero => by
      rw [means.unbound.mpr zero] at idle
      cases idle
    rw [started]
    cases ginh : (s.chan ch).ginh with
    | true => exact ⟨by simp [bound], by simp [held], by simp, by simp [ginh]⟩
    | false => exact ⟨by simp [bound], by simp [held], by simp [ginh], by simp⟩
  | ended ended free =>
    have key : (t.chan ch).key = (s.chan ch).key := by
      rw [ended, GateChannel.ended]
      split <;> rfl
    rw [key, ended]
    exact GateChannel.ended_means means free
  | opened guard opened held =>
    have bound : (s.chan ch).key ≠ 0#32 := fun zero => by
      rw [means.unbound.mpr zero] at guard
      cases guard
    have free : ¬s.heldExclusive (s.chan ch).key := by rw [means.held, guard]; simp
    rw [opened]
    exact ⟨by simp [bound], by simp [held, free], by simp, by simp⟩

/-! ### Every move -/

section
variable {s t : State} {i : RecIx} {old new : Record} (inv : ClaimsInv s) (law : GateLaw s)
include inv law

omit inv in
/-- The channel whose key the EXCLUSIVE holding is on is the one that hears of it. -/
theorem GateLaw.boundChannel_iff {key : Word} (nonzero : key ≠ 0#32) (ch : Channel) :
    s.boundChannel key = some ch ↔ (s.chan ch).key = key := by
  rw [law.keys]
  constructor
  · exact State.boundChannel_key
  · rintro rfl
    exact State.boundChannel_of_key law.unshared nonzero

/-- A grant at a record: a holding for a port that had none. -/
theorem GateLaw.granted {h : Holding} {p : Port} (stands : s.record i = some old ∨ s.record i = none ∧
      old = Record.fresh old.key ∧ ∀ j r, s.record j = some r → r.key ≠ old.key) (nonzero : old.key ≠ 0#32)
    (unheld : old.holder p = none) (key : new.key = old.key)
    (holder : ∀ q, new.holder q = (old.setHolder p (some h)).holder q)
    (record : ∀ j, t.record j = if j = i then some new else s.record j) (gate : s.gateOpen old.key h.mode = true)
    (ch : Channel) (chan : t.chan ch = if h.mode = .exclusive ∧ s.boundChannel old.key = some ch then
      { s.chan ch with state := if (s.chan ch).ginh then .heldLow else .high } else s.chan ch) :
    GateMoved s t ch := by
  cases mode : h.mode with
  | exclusive =>
    rw [mode] at chan gate
    obtain ⟨after, -⟩ := State.heldExclusive_of_record inv stands key record (s.chan ch).key
    have exclusive : new.exclusive :=
      (Record.exclusive_of_holders holder).mpr (Record.exclusive_setHolder.mpr (Or.inl mode))
    by_cases here : (s.chan ch).key = old.key
    · have bound := (law.boundChannel_iff nonzero ch).mpr here
      rw [if_pos ⟨rfl, bound⟩] at chan
      rw [if_pos here] at after
      exact .started ((s.gateOpen_iff _ _).mp gate rfl ch bound) chan (after.mpr exclusive)
    · rw [if_neg fun both => here ((law.boundChannel_iff nonzero ch).mp both.2)] at chan
      rw [if_neg here] at after
      exact .same chan after
  | shared =>
    rw [if_neg (by simp [mode])] at chan
    exact .same chan (State.heldExclusive_of_kept inv stands key record
      ((Record.exclusive_of_holders holder).trans (Record.exclusive_setHolder_shared unheld mode)) _)

theorem GateLaw.endHolding {r : Record} {p : Port} {h : Holding} (cause : Option NoticeKind)
    (stands : s.record i = some r) (held : r.holder p = some h) (ch : Channel) :
    GateMoved s (s.endHolding i r p h cause) ch := by
  have shape := inv.shape i r stands
  have chan := s.endHolding_chan i r p h cause ch
  have record := fun j => s.endHolding_record i j r p h cause
  have gone : ∀ q g, (r.setHolder p none).holder q = some g → q ≠ p ∧ r.holder q = some g := by
    intro q g found
    rw [Record.holder_setHolder] at found
    split at found
    · cases found
    · rename_i other; exact ⟨other, found⟩
  cases mode : h.mode with
  | exclusive =>
    obtain ⟨after, -⟩ := State.heldExclusive_of_record inv (Or.inl stands) (new := r.setHolder p none) rfl record
      (s.chan ch).key
    by_cases here : (s.chan ch).key = r.key
    · rw [if_pos ⟨mode, (law.boundChannel_iff shape.key ch).mpr here⟩] at chan
      rw [if_pos here] at after
      refine .ended chan fun claim => ?_
      obtain ⟨q, g, found, -⟩ := after.mp claim
      obtain ⟨other, found⟩ := gone q g found
      rw [shape.alone p h held mode q other] at found
      cases found
    · rw [if_neg fun both => here ((law.boundChannel_iff shape.key ch).mp both.2)] at chan
      rw [if_neg here] at after
      exact .same chan after
  | shared =>
    rw [if_neg (by simp [mode])] at chan
    refine .same chan (State.heldExclusive_of_kept inv (Or.inl stands) (new := r.setHolder p none) rfl record ?_ _)
    constructor
    · rintro ⟨q, g, found, exclusive⟩
      exact ⟨q, g, (gone q g found).2, exclusive⟩
    · rintro ⟨q, g, found, exclusive⟩
      refine ⟨q, g, ?_, exclusive⟩
      rw [Record.holder_setHolder, if_neg, found]
      rintro rfl
      cases held.symm.trans found
      rw [mode] at exclusive
      cases exclusive

theorem GateLaw.tearDownSteps (p : Port) (ch : Channel) : GateMoved s (s.tearDownSteps p) ch := by
  have torn := s.tearDownSteps_torn p
  have after : (s.tearDownSteps p).heldExclusive (s.chan ch).key ↔
      ∃ i r, s.record i = some r ∧ r.key = (s.chan ch).key ∧ ∃ q h, q ≠ p ∧ r.holder q = some h ∧
        h.mode = .exclusive := by
    constructor
    · rintro ⟨i, r, found, key, q, h, held, exclusive⟩
      rw [Option.mem_def, torn.record, Option.map_eq_some_iff] at found
      obtain ⟨r', stands, rfl⟩ := found
      rw [Option.mem_def, Record.holder_without] at held
      split at held
      · cases held
      · rename_i other; exact ⟨i, r', stands, key, q, h, other, held, exclusive⟩
    · rintro ⟨i, r, stands, key, q, h, other, held, exclusive⟩
      exact ⟨i, r.without p, by rw [Option.mem_def, torn.record, stands]; rfl, key, q, h,
        by rw [Option.mem_def, Record.holder_without, if_neg other, held], exclusive⟩
  by_cases ends : ∃ i, s.tearsExclusive p i ch
  · obtain ⟨i, r, stands, h, held, exclusive, bound⟩ := ends
    refine .ended (torn.ended ch ⟨i, r, stands, h, held, exclusive, bound⟩) fun claim => ?_
    obtain ⟨j, r', found, key, q, g, other, held', -⟩ := after.mp claim
    have own := (law.boundChannel_iff (inv.shape i r stands).key ch).mp bound
    have index := inv.keys j i r' r found stands (key.trans own)
    subst index
    cases found.symm.trans stands
    rw [(inv.shape _ _ found).alone p h held exclusive q other] at held'
    cases held'
  · refine .same (torn.chan ch ends) (after.trans ⟨?_, ?_⟩)
    · rintro ⟨i, r, stands, key, q, h, -, held, exclusive⟩
      exact ⟨i, r, stands, key, q, h, held, exclusive⟩
    · rintro ⟨i, r, stands, key, q, h, held, exclusive⟩
      refine ⟨i, r, stands, key, q, h, ?_, held, exclusive⟩
      rintro rfl
      exact ends ⟨i, r, stands, h, held, exclusive,
        (law.boundChannel_iff (inv.shape i r stands).key ch).mpr key.symm⟩

theorem GateLaw.claimMove {D E : Set RecIx} (move : ClaimMove D E s t) (ch : Channel) : GateMoved s t ch := by
  have untouched : ∀ {u : State}, (∀ j, u.record j = s.record j) → u.chan ch = s.chan ch → GateMoved s u ch :=
    fun record chan => .same chan (State.heldExclusive_of_records record _)
  cases move
  case grantHead i r w rest waits stands admissible =>
    obtain ⟨-, gate, -⟩ := (s.admissible_iff r w.mode).mp admissible
    have shape := inv.shape i r stands
    exact law.granted inv (h := ⟨w.mode, s.tok.G, s.now + w.lease.setWidth 32, w.slot⟩) (p := w.port)
      (new := r.granted w rest s.tok.G (s.now + w.lease.setWidth 32)) (Or.inl stands) shape.key
        (shape.onePerPort.2 w (by rw [waits]; simp)) rfl (fun q => rfl)
      (fun j => s.grantHead_record i j r w rest) gate ch (s.grantHead_chan i r w rest gate ch)
  case markReserved i r w rest waits stands blocked =>
    have chan := State.markReserved_chan s i r w rest ch
    cases compatible : r.compatible w.mode with
    | false =>
      have same : s.markReserved i r w rest = s := by simp [State.markReserved, compatible]
      rw [same]
      exact untouched (fun _ => rfl) rfl
    | true =>
      refine .same chan (State.heldExclusive_of_kept inv (Or.inl stands) (new := r.reservedHead w rest) rfl
        (fun j => ?_) (Record.exclusive_of_holders fun _ => rfl) _)
      rw [State.markReserved_record stands waits]
      simp [compatible]
  case retire i =>
    cases stands : s.record i with
    | none =>
      have same : s.retire i = s := State.retire_of_nonempty fun r found => by rw [stands] at found; cases found
      rw [same]; exact untouched (fun _ => rfl) rfl
    | some r =>
      rw [State.retire_eq s i stands]
      split
      · rename_i empty
        refine .same rfl ⟨?_, State.heldExclusive_retired stands empty⟩
        rintro ⟨j, r', found, rest⟩
        rw [Option.mem_def, State.record_setRecord] at found
        split at found
        · cases found
        · exact ⟨j, r', found, rest⟩
      · exact untouched (fun _ => rfl) rfl
  case endHolding i r p h cause held stands => exact law.endHolding inv cause stands held ch
  case dropWaiter i r w cause waiting stands =>
    exact .same (State.dropWaiter_chan s i r w cause ch) (State.heldExclusive_of_kept inv (Or.inl stands)
      (new := r.dropWaiter w.port) rfl (fun j => s.dropWaiter_record i j r w cause)
      (Record.exclusive_of_holders fun _ => rfl) _)
  case grantAtOnce p pl mode lease noWaiters fits admissible leaseFits =>
    obtain ⟨-, gate, -⟩ := (s.admissible_iff pl.record mode).mp admissible
    exact law.granted inv (h := ⟨mode, s.tok.G, s.now + lease.setWidth 32, pl.slot⟩) (p := p)
      (new := pl.record.setHolder p (some ⟨mode, s.tok.G, s.now + lease.setWidth 32, pl.slot⟩)) fits.stands fits.key
      fits.unheld rfl (fun q => rfl) (s.grantAtOnce_record p pl mode lease) gate ch
        (s.grantAtOnce_chan p pl mode lease gate ch)
  case enqueue p pl mode lease wait waits fits leaseFits waitFits =>
    exact .same (State.enqueue_chan s p pl mode lease wait ch) (State.heldExclusive_of_kept inv fits.stands
      (new := { pl.record with waiters := pl.record.waiters ++ [s.newEntry p pl mode lease wait] }) rfl
      (s.enqueue_record p pl mode lease wait) (Record.exclusive_of_holders fun _ => rfl) _)
  case noteDemand => exact untouched s.noteDemand_same.record (s.noteDemand_same.chan ch)
  case moveLease i r p h lease held stands leaseFits =>
    refine .same rfl (State.heldExclusive_of_kept inv (Or.inl stands)
      (new := r.setHolder p (some { h with deadline := s.now + lease.setWidth 32 })) rfl
      (fun j => s.record_setRecord i j _) ?_ _)
    rw [Record.exclusive_setHolder]
    constructor
    · rintro (exclusive | ⟨q, g, -, found, exclusive⟩)
      · exact ⟨p, h, held, exclusive⟩
      · exact ⟨q, g, found, exclusive⟩
    · rintro ⟨q, g, found, exclusive⟩
      by_cases here : q = p
      · subst here
        cases held.symm.trans found
        exact Or.inl exclusive
      · exact Or.inr ⟨q, g, here, found, exclusive⟩
  case acknowledge p n rest oldest =>
    have frame := (s.modPort_queue_frame p rest).trans (State.settleAcknowledged_frame _ p n.slot)
    unfold State.acknowledge State.settleAcknowledged
    split
    case h_1 => split <;> exact untouched (fun _ => rfl) rfl
    all_goals exact untouched (fun _ => rfl) rfl
  case tearDown p => exact law.tearDownSteps inv p ch
  case attach => exact untouched (fun _ => rfl) rfl
  case detach => exact untouched (fun _ => rfl) rfl
  case openGate d due =>
    have record : ∀ j, (s.setChan d { s.chan d with state := .idle }).record j = s.record j := fun _ => rfl
    by_cases here : ch = d
    · subst here
      exact .opened due (by rw [State.chan_setChan, if_pos rfl]) (State.heldExclusive_of_records record _)
    · exact untouched record (by rw [State.chan_setChan, if_neg here])

end

/-- A channel takes the GINH pin: HELD_LOW while asserted, HIGH behind it. -/
theorem GateChannel.takeGinh_means {c : GateChannel} {held : Prop} (level : Bool) (means : c.Means held) :
    (c.takeGinh level).Means held := by
  obtain ⟨unbound, claim, high, heldLow⟩ := means
  obtain ⟨key, guard, state, ginh⟩ := c
  cases state with
  | unbound => exact ⟨unbound, claim, (fun h => nomatch h), (fun h => nomatch h)⟩
  | idle => exact ⟨unbound, claim, (fun h => nomatch h), (fun h => nomatch h)⟩
  | guard deadline => exact ⟨unbound, claim, (fun h => nomatch h), (fun h => nomatch h)⟩
  | high =>
    have bound : key ≠ 0#32 := by simpa using unbound
    have claim : held := by simpa using claim
    cases level <;> exact ⟨by simp [GateChannel.takeGinh, bound], by simp [GateChannel.takeGinh, claim],
      by simp [GateChannel.takeGinh], by simp [GateChannel.takeGinh]⟩
  | heldLow =>
    have bound : key ≠ 0#32 := by simpa using unbound
    have claim : held := by simpa using claim
    cases level <;> exact ⟨by simp [GateChannel.takeGinh, bound], by simp [GateChannel.takeGinh, claim],
      by simp [GateChannel.takeGinh], by simp [GateChannel.takeGinh]⟩

theorem Move.gateLaw {D E : Set RecIx} {s t : State} (move : Move D E s t) (inv : ClaimsInv s) (law : GateLaw s) :
    GateLaw t := by
  have same := move.sameBoot
  refine ⟨fun ch => ?_, by rw [same.effective]; exact law.unshared, fun ch => ?_⟩
  · rw [(same.chan ch).1, same.effective]; exact law.keys ch
  · cases move with
    | claim ready move => exact (law.claimMove inv move ch).means (law.means ch)
    | store move =>
      have only := move.only
      rw [State.chan, only.chans]
      exact (law.means ch).congr (State.heldExclusive_of_records (State.record_of_table only.table) _)
    | link move =>
      have table := State.record_of_table move.only.table
      rw [(same.chan ch).1]
      refine GateChannel.Means.congr ?_ (State.heldExclusive_of_records table _)
      cases move with
      | ginh d level =>
        rw [State.chan_setChan]
        split
        · rename_i here; subst here; exact GateChannel.takeGinh_means level (law.means ch)
        · exact law.means ch
      | pin => exact law.means ch
      | reply => exact law.means ch
      | own => exact law.means ch
      | hold => exact law.means ch
      | ginhPin => exact law.means ch

/-! ### Every row -/

theorem State.endBoot_effective (s : State) : s.endBoot.cfg.effective = s.cfg.effective :=
  (State.bootLowWaterTest_sameBoot { s with device := .ready, restartTick := false }).effective

/-- The table is empty outside READY (R153). -/
def State.restsEmpty (s : State) : Prop := s.device ≠ .ready → ∀ i, s.record i = none

theorem Move.restsEmpty {D E : Set RecIx} {s t : State} (move : Move D E s t) (rests : s.restsEmpty) :
    t.restsEmpty := by
  have same := move.sameBoot
  intro notReady i
  rw [same.device] at notReady
  cases move with
  | claim ready move => exact absurd ready notReady
  | store move => rw [State.record_of_table move.only.table, rests notReady]
  | link move => rw [State.record_of_table move.only.table, rests notReady]

theorem Outside.restsEmpty {s t : State} (outside : Outside s t) (rests : s.restsEmpty) : t.restsEmpty := by
  intro notReady i
  rw [outside.same] at notReady ⊢
  exact rests notReady i

theorem BootSelected.restsEmpty {s t : State} (selected : BootSelected s t) (inReset : s.device = .inReset)
    (rests : s.restsEmpty) : t.restsEmpty := fun _ i => by
  rw [State.record_of_table selected.table]
  exact rests (by simp [inReset]) i

theorem State.not_heldExclusive_of_empty {s : State} (empty : ∀ i, s.record i = none) (key : Word) :
    ¬s.heldExclusive key := by
  rintro ⟨i, r, stands, -⟩
  rw [Option.mem_def, empty] at stands
  cases stands

theorem Outside.gateLaw {s t : State} (outside : Outside s t) (law : GateLaw s) : GateLaw t := by
  rw [outside.same]
  exact ⟨law.keys, law.unshared, law.means⟩

theorem ResetBegun.gateLaw {s t : State} (begun : ResetBegun s t) : GateLaw t := by
  refine ⟨fun ch => ?_, by rw [begun.cfg]; exact Image.factoryDefault_sharedKey, fun ch => ?_⟩
  · rw [begun.chan, begun.cfg]
    show (0#32 : Word) = (Image.factoryDefault.chan ch).key
    rw [Image.chan_factoryDefault]
  · rw [begun.chan]
    exact ⟨by simp, by simp [State.not_heldExclusive_of_empty begun.cleared.table], by simp, by simp⟩

theorem startChannel_means (set : ChannelSettings) (ginh : Bool) {held : Prop} (free : ¬held) :
    (startChannel set ginh).Means held := by
  obtain ⟨key, guard⟩ := set
  unfold startChannel
  dsimp only
  by_cases unbound : key = 0#32
  · exact ⟨by simp [unbound], by simp [unbound, free], by simp [unbound], by simp [unbound]⟩
  · by_cases zero : guard = 0#16
    · exact ⟨by simp [unbound, zero], by simp [unbound, zero, free], by simp [unbound, zero],
        by simp [unbound, zero]⟩
    · exact ⟨by simp [unbound, zero], by simp [unbound, zero, free], by simp [unbound, zero],
        by simp [unbound, zero]⟩

theorem BootSelected.gateLaw {s t : State} (selected : BootSelected s t) (empty : ∀ i, s.record i = none) :
    GateLaw t := by
  refine ⟨fun ch => by rw [selected.chans]; rfl, selected.effective_good.2, fun ch => ?_⟩
  rw [selected.chans]
  refine startChannel_means _ _ (State.not_heldExclusive_of_empty (fun i => ?_) _)
  rw [State.record_of_table selected.table, empty]

theorem State.endBoot_gateLaw {s : State} (law : GateLaw s) : GateLaw s.endBoot := by
  have only := s.endBoot_only
  have chan : ∀ ch, s.endBoot.chan ch = s.chan ch := fun ch => by rw [State.chan, State.chan, only.chans]
  refine ⟨fun ch => ?_, by rw [State.endBoot_effective]; exact law.unshared, fun ch => ?_⟩
  · rw [chan, State.endBoot_effective]; exact law.keys ch
  · rw [chan]
    exact (law.means ch).congr (State.heldExclusive_of_records (State.record_of_table only.table) _)

/-- What the gate rests on: the claims, an empty table outside READY, and its own law. -/
structure GateKept (s : State) : Prop where
  claims : ClaimsInv s
  rests : s.restsEmpty
  law : GateLaw s

theorem step_gateKept {s t : State} (row : step s = .next t) (kept : GateKept s) : GateKept t :=
  step_keeps (P := GateKept)
    (fun move kept => ⟨move.claimsInv kept.claims, move.restsEmpty kept.rests, move.gateLaw kept.claims kept.law⟩)
    (fun outside kept => ⟨kept.claims.of_same outside.claimsSame, outside.restsEmpty kept.rests,
      outside.gateLaw kept.law⟩)
    (fun begun _ => ⟨begun.claimsInv, fun _ => begun.cleared.table, begun.gateLaw⟩)
    (fun inReset selected kept => ⟨kept.claims.of_same selected.claimsSame, selected.restsEmpty inReset kept.rests,
      selected.gateLaw (kept.rests (by simp [inReset]))⟩)
    (fun {s} _ kept => ⟨kept.claims.of_same s.endBoot_only.claimsSame,
      fun notReady => absurd s.endBoot_device notReady, State.endBoot_gateLaw kept.law⟩)
    (fun ready kept => ⟨kept.claims.of_same (.of_ports rfl rfl rfl), fun notReady => absurd ready notReady,
      kept.law.keys, kept.law.unshared, kept.law.means⟩) row kept

/-- Settles O56: each change moves a channel with the EXCLUSIVE holdings of its key, of which the channels of the
configuration in force never share one. -/
theorem gateInvariantKept : Obligations.GateInvariantKept := by
  unfold Obligations.GateInvariantKept
  intro s t row table device gate
  obtain ⟨claims, -⟩ := (claimTableInv_iff s).mp table
  have kept := step_gateKept row ⟨claims, device.table, (gateInv_iff claims).mp gate⟩
  exact (gateInv_iff kept.claims).mpr kept.law

end Sys2Proof.Machine
end

section
/-! The device state along every row, and what it rules out: by the changes of a boot, which are the claim engine's
in READY alone, and by each boundary. -/

namespace Sys2Proof.Machine

/-! ### An invariant of every row, boundary by boundary -/

theorem step_keeps_each {P : State → Prop} (move : ∀ {D E s t}, Move D E s t → P s → P t)
    (boundary : ∀ {s t}, Boundary s t → P s → P t) (queue : ∀ {s rest}, P s → P { s with pending := rest })
    (tickOver : ∀ {s}, P s → P { s with restartTick := false }) (tick : ∀ {s}, s.device = .ready → P s → P s.tickOn)
    {s t : State} (row : step s = .next t) (start : P s) : P t := by
  unfold step at row
  split at row
  · cases row; exact start
  · rename_i c rest pending
    have popped : P { s with pending := rest } := queue start
    rcases leads_of_exec row with (work | crossed) | ticks
    · exact work.keeps move popped
    · exact boundary crossed popped
    · cases ticks with
      | idle => exact tickOver popped
      | tick ready dues work => exact tick (work.sameBoot.device.trans ready) (work.keeps move popped)
      | restart ready work runs => exact tickOver (boundary (.restart runs) (work.keeps move popped))

/-! ### A port outside READY -/

/-- What the device reset leaves of a port up to READY (R153, R154). -/
structure PortUnit.Rests (u : PortUnit) : Prop where
  slot : u.slot = .empty
  lastTag : u.lastTag = none
  frameError : u.frameError = false
  overrun : u.overrun = false
  attached : u.attached = false
  sessionLost : u.sessionLost = true

/-- What of a port unit only a decided frame or a POLL changes. -/
def PortUnit.sameReply (u v : PortUnit) : Prop :=
  v.slot = u.slot ∧ v.lastTag = u.lastTag ∧ v.frameError = u.frameError ∧ v.overrun = u.overrun

theorem PortUnit.sameReply.refl (u : PortUnit) : u.sameReply u := ⟨rfl, rfl, rfl, rfl⟩

theorem PortUnit.endTransfer_of_notReady {u : PortUnit} {device : DeviceState} (notReady : device ≠ .ready) (p : Port) :
    u.endTransfer device p = { u with transfer := none, sdo := none } := by
  unfold PortUnit.endTransfer
  split
  · exact absurd rfl notReady
  · rfl

theorem PortUnit.takeByte_reply (u : PortUnit) (t : Transfer) (b status : Byte) :
    u.sameReply (u.takeByte t b status) := by
  unfold PortUnit.takeByte
  split
  case h_2 =>
    unfold PortUnit.storeByte
    split <;> exact .refl u
  all_goals exact .refl u

theorem PortUnit.edge_reply {u : PortUnit} {device : DeviceState} (notReady : device ≠ .ready) (p : Port) (n : Nat)
    (c : PinChange) : u.sameReply (u.edge device p n c) := by
  unfold PortUnit.edge
  split
  case h_1 =>
    unfold PortUnit.beginTransfer
    split <;> exact .refl u
  case h_2 =>
    rw [PortUnit.endTransfer_of_notReady notReady]
    exact .refl u
  case h_3 =>
    split
    · unfold PortUnit.shiftOut
      split <;> exact .refl u
    · unfold PortUnit.ignoreFall
      split <;> exact .refl u
  case h_4 =>
    split
    · unfold PortUnit.sample
      dsimp only
      split
      · exact PortUnit.takeByte_reply _ _ _ _
      · exact .refl u
    · exact .refl u
  case h_5 => exact .refl u

theorem State.changePin_reply {s : State} (notReady : s.device ≠ .ready) (kind : TransferKind) (p : Port)
    (c : PinChange) (q : Port) : (s.port q).sameReply ((State.changePin kind p s c).port q) := by
  unfold State.changePin
  rw [State.port_setPort]
  split
  · rename_i same
    rw [same]
    split
    · unfold PortUnit.change
      split
      · exact .refl _
      · dsimp only
        split
        · exact .refl _
        · exact PortUnit.edge_reply notReady _ _ _
        · exact PortUnit.edge_reply notReady _ _ _
    · exact .refl _
  · exact .refl _

/-! ### The changes of a boot -/

/-- The blocks of the part at rest outside READY (R73, R153, R154). -/
structure State.Resting (s : State) : Prop where
  now : s.now = 0#32
  table : ∀ i, s.record i = none
  ports : ∀ p, (s.port p).Rests
  lines : ∀ ch, (s.chan ch).state ≠ .high ∧ (s.chan ch).state ≠ .heldLow

/-- DeviceInv, its parts outside READY together. -/
theorem deviceInv_iff (s : State) : DeviceInv s ↔
    (s.device = .inReset ↔ s.supply.region ≠ .released ∨ s.rstLow = true) ∧
    (s.hold ≠ .none → s.device = .ready) ∧
    (s.restartTick = true → s.device ≠ .ready ∧ s.supply.cause = some .restart) ∧
    (s.supply.region = .held → s.supply.low = true) ∧ (s.device ≠ .ready → s.Resting) := by
  constructor
  · rintro ⟨inReset, hold, restartTick, supplyLow, now, table, ports, lines⟩
    refine ⟨inReset, hold, restartTick, supplyLow, fun out => ⟨now out, table out, fun p => ?_, lines out⟩⟩
    obtain ⟨slot, lastTag, frameError, overrun, attached, sessionLost⟩ := ports out p
    exact ⟨slot, lastTag, frameError, overrun, attached, sessionLost⟩
  · rintro ⟨inReset, hold, restartTick, supplyLow, rests⟩
    refine ⟨inReset, hold, restartTick, supplyLow, fun out => (rests out).now, fun out => (rests out).table,
      fun out p => ?_, fun out => (rests out).lines⟩
    obtain ⟨slot, lastTag, frameError, overrun, attached, sessionLost⟩ := (rests out).ports p
    exact ⟨slot, lastTag, frameError, overrun, attached, sessionLost⟩

theorem LinkMove.resting {s t : State} (move : LinkMove s t) (notReady : s.device ≠ .ready) (rests : s.Resting) :
    t.Resting := by
  refine ⟨move.sameBoot.now.trans rests.now, fun i => ?_, fun p => ?_, fun ch => ?_⟩
  · rw [State.record_of_table move.only.table, rests.table]
  · obtain ⟨-, -, attached, -, sessionLost⟩ := move.only.session p
    have was := rests.ports p
    have reply : (s.port p).sameReply (t.port p) := by
      cases move with
      | pin kind q c => exact State.changePin_reply notReady kind q c p
      | reply ready => exact absurd ready notReady
      | own => exact .refl _
      | hold => exact .refl _
      | ginhPin => exact .refl _
      | ginh => exact .refl _
    obtain ⟨slot, lastTag, frameError, overrun⟩ := reply
    exact ⟨slot.trans was.slot, lastTag.trans was.lastTag, frameError.trans was.frameError,
      overrun.trans was.overrun, attached.trans was.attached, sessionLost.trans was.sessionLost⟩
  · have was := rests.lines ch
    cases move with
    | ginh d level running =>
      rw [State.chan_setChan]
      split
      · rename_i here
        subst here
        generalize s.chan ch = c at was
        obtain ⟨key, guard, state, ginh⟩ := c
        cases state with
        | unbound => exact was
        | idle => exact was
        | guard => exact was
        | high => exact absurd rfl was.1
        | heldLow => exact absurd rfl was.2
      · exact was
    | pin => exact was
    | reply => exact was
    | own => exact was
    | hold => exact was
    | ginhPin => exact was

theorem StoreMove.resting {s t : State} (move : StoreMove s t) (rests : s.Resting) : t.Resting := by
  have only := move.only
  refine ⟨move.sameBoot.now.trans rests.now, fun i => ?_, fun p => ?_, fun ch => ?_⟩
  · rw [State.record_of_table only.table, rests.table]
  · rw [State.port, only.ports]; exact rests.ports p
  · rw [State.chan, only.chans]; exact rests.lines ch

theorem ClaimMove.hold {D E : Set RecIx} {s t : State} (move : ClaimMove D E s t) : t.hold = s.hold := by
  cases move
  case grantHead => exact (State.grantHead_frame _ _ _ _ _).hold
  case markReserved => exact (State.markReserved_frame _ _ _ _ _).hold
  case retire i => exact (s.retire_frame i).hold
  case endHolding => exact (State.endHolding_frame _ _ _ _ _ _).hold
  case dropWaiter => exact (State.dropWaiter_frame _ _ _ _ _).hold
  case grantAtOnce => exact (State.grantAtOnce_frame _ _ _ _ _).hold
  case enqueue => exact (State.enqueue_frame _ _ _ _ _ _).hold
  case noteDemand => exact s.noteDemand_frame.hold
  case moveLease => rfl
  case acknowledge => exact ((State.modPort_queue_frame _ _ _).trans (State.settleAcknowledged_frame _ _ _)).hold
  case tearDown p => exact (s.tearDownSteps_frame p).hold
  case attach => rfl
  case detach => rfl
  case openGate => rfl

theorem State.kickEngine_supply (s : State) : s.kickEngine.supply = s.supply := by
  obtain ⟨engine, advance, commit, cfg, same, -⟩ := s.kickEngine_eq
  rw [same]

theorem State.rowSucceeded_supply (s : State) (req : RowRequest) : (s.rowSucceeded req).supply = s.supply := by
  unfold State.rowSucceeded
  split
  case h_1 side => exact (State.lowWaterTest_frame _).supply
  case h_2 =>
    unfold State.handSecondRow
    split <;> rfl
  case h_3 => rfl

theorem State.rowFailed_supply (s : State) (req : RowRequest) : (s.rowFailed req).supply = s.supply := by
  unfold State.rowFailed
  split <;> rfl

/-- The supply-low flag is cleared above the release level alone. -/
theorem StoreMove.low {s t : State} (move : StoreMove s t) (held : s.supply.region = .held)
    (low : s.supply.low = true) : t.supply.low = true := by
  cases move
  case lowClear released => rw [released] at held; cases held
  case lowSet => rfl
  case commit => rw [State.acceptCommit, State.kickEngine_supply]; exact low
  case verified => rw [State.kickEngine_supply, State.rowSucceeded_supply]; exact low
  case failed => rw [State.kickEngine_supply, State.rowFailed_supply]; exact low
  all_goals exact low

theorem Move.deviceInv {D E : Set RecIx} {s t : State} (move : Move D E s t) (inv : DeviceInv s) : DeviceInv t := by
  rw [deviceInv_iff] at inv ⊢
  obtain ⟨inReset, hold, restartTick, supplyLow, rests⟩ := inv
  have same := move.sameBoot
  rw [same.device, same.region, same.rstLow, same.restartTick, same.cause]
  refine ⟨inReset, ?hold, restartTick, ?low, ?rests⟩
  case hold =>
    cases move with
    | claim ready => exact fun _ => ready
    | store move => rw [move.only.hold]; exact hold
    | link move =>
      cases move with
      | hold ready => exact fun _ => ready
      | pin => exact hold
      | reply => exact hold
      | own => exact hold
      | ginhPin => exact hold
      | ginh => exact hold
  case low =>
    intro held
    cases move with
    | claim _ move => rw [move.supply]; exact supplyLow held
    | store move => exact move.low held (supplyLow held)
    | link move => rw [move.only.supply]; exact supplyLow held
  case rests =>
    intro out
    cases move with
    | claim ready => exact absurd ready out
    | store move => exact move.resting (rests out)
    | link move => exact move.resting out (rests out)

/-! ### The boundaries -/

theorem PortUnit.rests_reset (pins : LinkPins) : ({ PortUnit.reset with pins := pins } : PortUnit).Rests :=
  ⟨rfl, rfl, rfl, rfl, rfl, rfl⟩

theorem ResetBegun.resting {s t : State} (begun : ResetBegun s t) : t.Resting := by
  refine ⟨begun.cleared.now, begun.cleared.table, fun p => ?_, fun ch => ?_⟩
  · rw [begun.cleared.ports]; exact PortUnit.rests_reset _
  · rw [begun.chan]; simp

theorem BootSelected.resting {s t : State} (selected : BootSelected s t) (rests : s.Resting) : t.Resting := by
  refine ⟨selected.now.trans rests.now, fun i => ?_, fun p => ?_, fun ch => ?_⟩
  · rw [State.record_of_table selected.table, rests.table]
  · have was := rests.ports p
    rw [(selected.ports p).1]
    exact ⟨was.slot, was.lastTag, was.frameError, was.overrun, was.attached, was.sessionLost⟩
  · rw [selected.chans, startChannel]
    dsimp only
    split
    · simp
    · split <;> simp

/-- A reset leaves the device state right wherever its condition is noted. -/
theorem ResetBegun.deviceInv {s t : State} (begun : ResetBegun s t)
    (condition : t.supply.region ≠ .released ∨ t.rstLow = true)
    (tick : t.restartTick = true → t.supply.cause = some .restart)
    (low : t.supply.region = .held → t.supply.low = true) : DeviceInv t := by
  have out : t.device ≠ .ready := by rw [begun.cleared.device]; simp
  rw [deviceInv_iff]
  exact ⟨iff_of_true begun.cleared.device condition, fun running => absurd begun.cleared.hold running,
    fun restart => ⟨out, tick restart⟩, low, fun _ => begun.resting⟩

/-- The entry into BOOT leaves it right where no reset condition holds. -/
theorem BootSelected.deviceInv {s t : State} (selected : BootSelected s t) (rests : s.Resting) (hold : s.hold = .none)
    (released : t.supply.region = .released) (high : t.rstLow = false)
    (tick : t.restartTick = true → t.supply.cause = some .restart) : DeviceInv t := by
  have out : t.device ≠ .ready := by rw [selected.device]; simp
  rw [deviceInv_iff]
  refine ⟨iff_of_false (by rw [selected.device]; simp) (by simp [released, high]),
    fun running => absurd (selected.hold.trans hold) running, fun restart => ⟨out, tick restart⟩,
    fun held => ?_, fun _ => selected.resting rests⟩
  rw [released] at held
  cases held

/-- A reset condition ends, or one of two: the part boots or stays. -/
theorem State.leaveReset_deviceInv {s : State} (running : s.device = .inReset) (hold : s.hold = .none)
    (rests : s.Resting) (tick : s.restartTick = true → s.supply.cause = some .restart)
    (low : s.supply.region = .held → s.supply.low = true) : DeviceInv s.leaveReset := by
  unfold State.leaveReset
  split
  · rename_i leaves
    have out := (State.resetCondition_eq_false_iff s).mp (by simpa using leaves.2)
    exact s.enterBoot_selected.deviceInv rests hold out.1 out.2 tick
  · rename_i stays
    have condition : s.supply.region ≠ .released ∨ s.rstLow = true := by
      by_contra stopped
      have out := (State.resetCondition_eq_false_iff s).mpr (by simpa using stopped)
      exact stays ⟨running, by simp [out]⟩
    rw [deviceInv_iff]
    exact ⟨iff_of_true running condition, fun runs => absurd hold runs,
      fun restart => ⟨by simp [running], tick restart⟩,
      low, fun _ => rests⟩

theorem State.recordedCause_of_restartTick {s : State} (cause : ResetCause) (tick : s.restartTick = true) :
    s.recordedCause cause = s.supply.cause := by simp [State.recordedCause, tick]

theorem DeviceInv.hold_none {s : State} (inv : DeviceInv s) (out : s.device ≠ .ready) : s.hold = .none := by
  by_contra running
  exact out (inv.hold running)

/-- A reset whose condition is noted first, with the cause recorded. -/
theorem State.beginReset_deviceInv {s : State} (cause : ResetCause)
    (condition : s.supply.region ≠ .released ∨ s.rstLow = true)
    (tick : s.restartTick = true → s.supply.cause = some .restart)
    (low : s.supply.region = .held → s.supply.low = true) : DeviceInv (s.beginReset cause) := by
  refine (s.beginReset_begun cause).deviceInv ?_ ?_ ?_
  · rw [State.beginReset_supply, State.beginReset_rstLow]; exact condition
  · rw [State.beginReset_supply, State.beginReset_restartTick]
    intro restart
    exact (State.recordedCause_of_restartTick cause restart).trans (tick restart)
  · rw [State.beginReset_supply]; exact low

theorem Boundary.deviceInv {s t : State} (boundary : Boundary s t) (inv : DeviceInv s) : DeviceInv t := by
  obtain ⟨inReset, hold, restartTick, supplyLow, rests⟩ := (deviceInv_iff s).mp inv
  have tick : s.restartTick = true → s.supply.cause = some .restart := fun restart => (restartTick restart).2
  have stays : s.device = .inReset → s.hold = .none ∧ s.Resting := fun running =>
    ⟨inv.hold_none (by simp [running]), rests (by simp [running])⟩
  cases boundary
  case brownout running =>
    exact State.beginReset_deviceInv .brownout (Or.inl (by simp [SupplyMonitor.hold])) tick fun _ => rfl
  case sag running released =>
    obtain ⟨stopped, resting⟩ := stays running
    rw [deviceInv_iff]
    exact ⟨iff_of_true running (Or.inl (by simp [SupplyMonitor.hold])), fun runs => absurd stopped runs,
      restartTick, fun _ => rfl, fun _ => ⟨resting.now, resting.table, resting.ports, resting.lines⟩⟩
  case powerOff running =>
    exact ((s.beginReset_begun .brownout).setSupply _ _).deviceInv (Or.inl (by simp)) (fun h => nomatch h)
      (fun h => nomatch h)
  case powerOffInReset running =>
    obtain ⟨stopped, resting⟩ := stays running
    rw [deviceInv_iff]
    exact ⟨iff_of_true running (Or.inl (by simp)), fun runs => absurd stopped runs, (fun h => nomatch h),
      (fun h => nomatch h), fun _ => ⟨resting.now, resting.table, resting.ports, resting.lines⟩⟩
  case powerOn off =>
    exact State.beginReset_deviceInv .powerOn (Or.inl (by simp [SupplyMonitor.hold])) (fun h => nomatch h) fun _ => rfl
  case release held =>
    have running : s.device = .inReset := inReset.mpr (Or.inl (by simp [held]))
    obtain ⟨stopped, resting⟩ := stays running
    exact State.leaveReset_deviceInv (s := { s with supply := { s.supply with region := .released } }) running stopped
      ⟨resting.now, resting.table, resting.ports, resting.lines⟩ tick (fun h => nomatch h)
  case rstLow running => exact State.beginReset_deviceInv .pin (Or.inr rfl) tick supplyLow
  case rstLowInReset running =>
    obtain ⟨stopped, resting⟩ := stays running
    rw [deviceInv_iff]
    exact ⟨iff_of_true running (Or.inr rfl), fun runs => absurd stopped runs, restartTick, supplyLow,
      fun _ => ⟨resting.now, resting.table, resting.ports, resting.lines⟩⟩
  case rstHigh =>
    by_cases running : s.device = .inReset
    · obtain ⟨stopped, resting⟩ := stays running
      exact State.leaveReset_deviceInv (s := { s with rstLow := false }) running stopped
        ⟨resting.now, resting.table, resting.ports, resting.lines⟩ tick supplyLow
    · have out := mt inReset.mpr running
      rw [not_or] at out
      rw [State.leaveReset, if_neg fun leaves => running leaves.1, deviceInv_iff]
      exact ⟨iff_of_false running (by simpa using out.1), hold, restartTick, supplyLow, fun away =>
        ⟨(rests away).now, (rests away).table, (rests away).ports, (rests away).lines⟩⟩
  case restart runs =>
    have begun := (State.beginReset_begun { s with restartTick := false } .restart).setSupply
      (State.beginReset { s with restartTick := false } .restart).supply true
    exact State.leaveReset_deviceInv (s := { State.beginReset { s with restartTick := false } .restart with
      restartTick := true }) rfl begun.cleared.hold begun.resting
      (fun _ => by rw [State.beginReset_supply]; rfl) (by rw [State.beginReset_supply]; exact supplyLow)
  case bootEnd boot =>
    have out : s.device ≠ .inReset := by simp [boot]
    have same := State.bootLowWaterTest_sameBoot { s with device := .ready, restartTick := false }
    have supply : s.endBoot.supply.low = s.supply.low := by
      rcases State.bootLowWaterTest_eq { s with device := .ready, restartTick := false } with eq | ⟨-, -, eq⟩
      · rw [State.endBoot, eq]
      · rw [State.endBoot, eq, (State.requestAdvance_frame _).supply]
    rw [deviceInv_iff]
    refine ⟨iff_of_false (by simp [s.endBoot_device]) ?_, fun _ => s.endBoot_device, fun restart => ?_, fun held => ?_,
      fun away => absurd s.endBoot_device away⟩
    · rw [State.endBoot, same.region, same.rstLow]
      exact mt inReset.mpr out
    · rw [State.endBoot, same.restartTick] at restart
      cases restart
    · rw [State.endBoot, same.region] at held
      rw [supply]
      exact supplyLow held

theorem State.advanceNow_device (s : State) : s.advanceNow.device = s.device := rfl

theorem State.tickOn_deviceInv {s : State} (ready : s.device = .ready) (inv : DeviceInv s) : DeviceInv s.tickOn := by
  rw [deviceInv_iff] at inv ⊢
  obtain ⟨inReset, -, -, supplyLow, -⟩ := inv
  exact ⟨inReset, fun _ => ready, (fun h => nomatch h), supplyLow, fun out => absurd ready out⟩

theorem step_deviceInv {s t : State} (row : step s = .next t) (inv : DeviceInv s) : DeviceInv t := by
  refine step_keeps_each (P := DeviceInv) (fun move => move.deviceInv) (fun boundary => boundary.deviceInv) ?_ ?_
    (fun ready => State.tickOn_deviceInv ready) row inv
  · exact fun inv => { inv with }
  · exact fun inv => { inv with restartTick := fun h => nomatch h }

end Sys2Proof.Machine
end

section
/-! The link along every row: by what each pin change leaves of its port, and what each boundary drives on SDO. -/

namespace Sys2Proof.Machine

/-! ### One port -/

/-- The link of a port in a device state (R136 to R139, R147). -/
structure PortUnit.LinkOk (u : PortUnit) (device : DeviceState) (p : Port) : Prop where
  quiet : u.pins.csn = true ∨ device = .inReset → u.transfer = none ∧ u.sdo = none
  driven : u.pins.csn = false → device ≠ .inReset → u.sdo.isSome = true
  transfer : ∀ t, u.transfer = some t → u.sdo.isSome = true ∧ t.bitsIn.length < 8
  rx : u.rx.length ≤ 16
  pending : ∀ tag c, u.slot = .pending tag c → ∃ code params, wireOf c = some (p, code, params)

theorem linkInv_iff (s : State) : LinkInv s ↔ ∀ p, (s.port p).LinkOk s.device p := by
  refine forall_congr' fun p => ⟨?_, ?_⟩
  · rintro ⟨quiet, driven, transfer, rx, pending⟩
    exact ⟨quiet, driven, transfer, rx, pending⟩
  · rintro ⟨quiet, driven, transfer, rx, pending⟩
    exact ⟨quiet, driven, transfer, rx, pending⟩

/-- What the link of a port is read from. -/
structure PortUnit.SameLink (u v : PortUnit) : Prop where
  pins : v.pins = u.pins
  transfer : v.transfer = u.transfer
  sdo : v.sdo = u.sdo
  rx : v.rx = u.rx
  slot : v.slot = u.slot

theorem PortUnit.SameLink.refl (u : PortUnit) : u.SameLink u := ⟨rfl, rfl, rfl, rfl, rfl⟩

theorem PortUnit.LinkOk.of_same {u v : PortUnit} {device : DeviceState} {p : Port} (ok : u.LinkOk device p)
    (same : u.SameLink v) : v.LinkOk device p := by
  constructor
  · rw [same.pins, same.transfer, same.sdo]; exact ok.quiet
  · rw [same.pins, same.sdo]; exact ok.driven
  · rw [same.transfer, same.sdo]; exact ok.transfer
  · rw [same.rx]; exact ok.rx
  · rw [same.slot]; exact ok.pending

/-! ### A frame decided -/

theorem PortUnit.decide_pending {u : PortUnit} {p : Port}
    (pending : ∀ tag c, u.slot = .pending tag c → ∃ code params, wireOf c = some (p, code, params)) :
    ∀ tag c, (u.decide (readFrame p u.rx)).slot = .pending tag c →
      ∃ code params, wireOf c = some (p, code, params) := by
  have replayed : ∀ tag c, u.markReplayed.slot = .pending tag c → ∃ code params, wireOf c = some (p, code, params) := by
    intro tag c
    unfold PortUnit.markReplayed
    split
    · exact fun h => nomatch h
    · exact pending tag c
    · exact pending tag c
  intro tag c
  unfold PortUnit.decide
  split
  · exact pending tag c
  · split
    · exact pending tag c
    · split
      · exact replayed tag c
      · exact fun h => nomatch h
  · rename_i g cmd reads
    split
    · exact pending tag c
    · split
      · exact replayed tag c
      · intro accepted
        cases accepted
        obtain ⟨-, -, spells⟩ := readFrame_eq_command_iff.mp reads
        exact ⟨_, _, spells⟩

theorem PortUnit.decide_link (u : PortUnit) (frame : FrameReading) :
    (u.decide frame).transfer = u.transfer ∧ (u.decide frame).sdo = u.sdo ∧ (u.decide frame).rx = u.rx ∧
      (u.decide frame).pins = u.pins := by
  have replayed : u.markReplayed.transfer = u.transfer ∧ u.markReplayed.sdo = u.sdo ∧ u.markReplayed.rx = u.rx ∧
      u.markReplayed.pins = u.pins := by
    unfold PortUnit.markReplayed
    split <;> exact ⟨rfl, rfl, rfl, rfl⟩
  unfold PortUnit.decide
  split
  · exact ⟨rfl, rfl, rfl, rfl⟩
  · split
    · exact ⟨rfl, rfl, rfl, rfl⟩
    · split
      · exact replayed
      · exact ⟨rfl, rfl, rfl, rfl⟩
  · split
    · exact ⟨rfl, rfl, rfl, rfl⟩
    · split
      · exact replayed
      · exact ⟨rfl, rfl, rfl, rfl⟩

/-- A port that drives nothing, whatever the device state. -/
theorem PortUnit.LinkOk.silent {u : PortUnit} {device : DeviceState} {p : Port} (transfer : u.transfer = none)
    (sdo : u.sdo = none) (high : u.pins.csn = true ∨ device = .inReset) (rx : u.rx.length ≤ 16)
    (pending : ∀ tag c, u.slot = .pending tag c → ∃ code params, wireOf c = some (p, code, params)) :
    u.LinkOk device p := by
  refine ⟨fun _ => ⟨transfer, sdo⟩, fun low running => ?_, fun t found => ?_, rx, pending⟩
  · rcases high with high | inReset
    · rw [high] at low; cases low
    · exact absurd inReset running
  · rw [transfer] at found; cases found

/-- A port that drives SDO, with CSn low. -/
theorem PortUnit.LinkOk.driving {u : PortUnit} {device : DeviceState} {p : Port} (low : u.pins.csn = false)
    (running : device ≠ .inReset) (sdo : u.sdo.isSome = true)
    (transfer : ∀ t, u.transfer = some t → t.bitsIn.length < 8) (rx : u.rx.length ≤ 16)
    (pending : ∀ tag c, u.slot = .pending tag c → ∃ code params, wireOf c = some (p, code, params)) :
    u.LinkOk device p := by
  refine ⟨fun quiet => ?_, fun _ _ => sdo, fun t found => ⟨sdo, transfer t found⟩, rx, pending⟩
  rcases quiet with high | inReset
  · rw [low] at high; cases high
  · exact absurd inReset running

/-! ### A pin change -/

section
variable {u : PortUnit} {device : DeviceState} {p : Port}

/-- The rise of CSn ends a transaction (R136). -/
theorem PortUnit.endTransfer_linkOk (high : u.pins.csn = true) (rx : u.rx.length ≤ 16)
    (pending : ∀ tag c, u.slot = .pending tag c → ∃ code params, wireOf c = some (p, code, params)) :
    (u.endTransfer device p).LinkOk device p := by
  have ended : ∀ kind, (({ u with transfer := none, sdo := none } : PortUnit).conclude p kind).LinkOk device p := by
    intro kind
    unfold PortUnit.conclude
    split
    · obtain ⟨transfer, sdo, buffer, pins⟩ := PortUnit.decide_link { u with transfer := none, sdo := none }
        (readFrame p u.rx)
      exact .silent transfer sdo (Or.inl (by rw [pins]; exact high)) (by rw [buffer]; exact rx)
        (PortUnit.decide_pending pending)
    · exact .silent rfl rfl (Or.inl high) rx pending
    · exact .silent rfl rfl (Or.inl high) rx pending
    · exact .silent rfl rfl (Or.inl high) rx pending
    · exact .silent rfl rfl (Or.inl high) rx pending
  unfold PortUnit.endTransfer
  split
  · exact ended _
  · exact .silent rfl rfl (Or.inl high) rx pending

/-- The fall of CSn begins one (R136, R137). -/
theorem PortUnit.beginTransfer_linkOk (low : u.pins.csn = false) (running : device ≠ .inReset)
    (rx : u.rx.length ≤ 16)
    (pending : ∀ tag c, u.slot = .pending tag c → ∃ code params, wireOf c = some (p, code, params)) (status : Byte)
    (n : Nat) : (u.beginTransfer status n).LinkOk device p := by
  have first : ∀ t b out, (some (⟨b, none, [], out⟩ : Transfer)) = some t → t.bitsIn.length < 8 := by
    rintro t b out begun
    cases begun
    exact Nat.zero_lt_succ 7
  unfold PortUnit.beginTransfer
  split
  · exact .driving low running rfl (fun t => first t _ _) rx pending
  · exact .driving low running rfl (fun t => first t _ _) rx pending

/-- The bits of an incomplete byte are fewer than eight. -/
theorem length_lt_of_bytesOfBits_eq_nil {bits : List Bool} (incomplete : bytesOfBits bits = []) :
    bits.length < 8 := by
  match bits, incomplete with
  | [], _ => simp
  | [_], _ => simp
  | [_, _], _ => simp
  | [_, _, _], _ => simp
  | [_, _, _, _], _ => simp
  | [_, _, _, _, _], _ => simp
  | [_, _, _, _, _, _], _ => simp
  | [_, _, _, _, _, _, _], _ => simp

/-- A byte complete leaves the port driving, its next byte begun (R137, R139). -/
theorem PortUnit.takeByte_linkOk (low : u.pins.csn = false) (running : device ≠ .inReset) (sdo : u.sdo.isSome = true)
    (rx : u.rx.length ≤ 16)
    (pending : ∀ tag c, u.slot = .pending tag c → ∃ code params, wireOf c = some (p, code, params)) (t : Transfer)
    (b status : Byte) : (u.takeByte t b status).LinkOk device p := by
  have first : ∀ m k out t', some (⟨m, k, [], out⟩ : Transfer) = some t' → t'.bitsIn.length < 8 := by
    rintro m k out t' begun
    cases begun
    exact Nat.zero_lt_succ 7
  unfold PortUnit.takeByte
  split
  · refine .driving low running sdo (fun t' => first _ _ _ t') ?_ pending
    dsimp only
    split
    · exact Nat.zero_le 16
    · exact rx
  · unfold PortUnit.storeByte
    split
    · rename_i room
      refine .driving low running sdo (fun t' => first _ _ _ t') ?_ pending
      rw [List.length_append]
      exact room
    · exact .driving low running sdo (fun t' => first _ _ _ t') rx pending
  · exact .driving low running sdo (fun t' => first _ _ _ t') rx pending
  · exact .driving low running sdo (fun t' => first _ _ _ t') rx pending
  · exact .driving low running sdo (fun t' => first _ _ _ t') rx pending

/-- A port with CSn low drives SDO. -/
theorem PortUnit.LinkOk.low_of_transfer (ok : u.LinkOk device p) {t : Transfer} (found : u.transfer = some t) :
    u.pins.csn = false ∧ device ≠ .inReset := by
  refine ⟨?_, fun inReset => ?_⟩
  · by_contra high
    rw [(ok.quiet (Or.inl (by simpa using high))).1] at found
    cases found
  · rw [(ok.quiet (Or.inr inReset)).1] at found
    cases found

/-- An edge of SCK or SDI (R136, R137). -/
theorem PortUnit.clock_linkOk (ok : u.LinkOk device p) (running : device ≠ .inReset) (n : Nat) (c : PinChange)
    (clock : ∀ b, c ≠ .csn b) : (u.edge device p n c).LinkOk device p := by
  unfold PortUnit.edge
  split
  case h_1 => exact absurd rfl (clock _)
  case h_2 => exact absurd rfl (clock _)
  case h_3 =>
    split
    · rename_i t found
      obtain ⟨low, -⟩ := ok.low_of_transfer found
      obtain ⟨-, bits⟩ := ok.transfer t found
      unfold PortUnit.shiftOut
      split
      · refine .driving low running rfl (fun t' begun => ?_) ok.rx ok.pending
        cases begun
        exact bits
      · exact .driving low running rfl (fun t' begun => (ok.transfer t' begun).2) ok.rx ok.pending
    · rename_i idle
      unfold PortUnit.ignoreFall
      split
      · exact ok
      · rename_i low
        refine .driving (by simpa using low) running rfl (fun t' begun => ?_) ok.rx ok.pending
        rw [show u.transfer = some t' from begun] at idle
        cases idle
  case h_4 =>
    split
    · rename_i t found
      obtain ⟨low, -⟩ := ok.low_of_transfer found
      obtain ⟨sdo, -⟩ := ok.transfer t found
      unfold PortUnit.sample
      dsimp only
      split
      · exact PortUnit.takeByte_linkOk (u := { u with sampled := u.sampled ++ u.sdo.toList }) low running sdo ok.rx
          ok.pending _ _ _
      · rename_i incomplete
        refine .driving low running sdo (fun t' begun => ?_) ok.rx ok.pending
        cases begun
        exact length_lt_of_bytesOfBits_eq_nil incomplete
    · exact ok
  case h_5 => exact ok

theorem PortUnit.change_linkOk (ok : u.LinkOk device p) (n : Nat) (c : PinChange) :
    (u.change device p n c).LinkOk device p := by
  unfold PortUnit.change
  split
  · exact ok
  · by_cases inReset : device = .inReset
    · subst inReset
      obtain ⟨transfer, sdo⟩ := ok.quiet (Or.inr rfl)
      exact .silent transfer sdo (Or.inr rfl) ok.rx ok.pending
    · have moved : (({ u with pins := u.pins.after c } : PortUnit).edge device p n c).LinkOk device p := by
        cases c with
        | csn level =>
          cases level with
          | false =>
            exact PortUnit.beginTransfer_linkOk (u := { u with pins := u.pins.after (.csn false) }) rfl inReset ok.rx
              ok.pending _ n
          | true =>
            exact PortUnit.endTransfer_linkOk (u := { u with pins := u.pins.after (.csn true) }) rfl ok.rx ok.pending
        | sck level =>
          exact PortUnit.clock_linkOk (u := { u with pins := u.pins.after (.sck level) })
            ⟨ok.quiet, ok.driven, ok.transfer, ok.rx, ok.pending⟩ inReset n _ (fun _ h => by cases h)
        | sdi level =>
          exact PortUnit.clock_linkOk (u := { u with pins := u.pins.after (.sdi level) })
            ⟨ok.quiet, ok.driven, ok.transfer, ok.rx, ok.pending⟩ inReset n _ (fun _ h => by cases h)
      cases device with
      | inReset => exact absurd rfl inReset
      | boot => exact moved
      | ready => exact moved

end

/-! ### Every change of a boot -/

theorem ClaimFrame.sameLink {s t : State} (frame : ClaimFrame s t) (p : Port) : (s.port p).SameLink (t.port p) := by
  rw [frame.port p]
  exact ⟨rfl, rfl, rfl, rfl, rfl⟩

/-- The claim engine leaves the link of every port. -/
theorem ClaimMove.sameLink {D E : Set RecIx} {s t : State} (move : ClaimMove D E s t) (q : Port) :
    (s.port q).SameLink (t.port q) := by
  cases move
  case grantHead => exact (State.grantHead_frame _ _ _ _ _).sameLink q
  case markReserved => exact (State.markReserved_frame _ _ _ _ _).sameLink q
  case retire i => exact (s.retire_frame i).sameLink q
  case endHolding => exact (State.endHolding_frame _ _ _ _ _ _).sameLink q
  case dropWaiter => exact (State.dropWaiter_frame _ _ _ _ _).sameLink q
  case grantAtOnce => exact (State.grantAtOnce_frame _ _ _ _ _).sameLink q
  case enqueue => exact (State.enqueue_frame _ _ _ _ _ _).sameLink q
  case noteDemand => exact s.noteDemand_frame.sameLink q
  case moveLease => exact .refl _
  case acknowledge =>
    exact ((State.modPort_queue_frame _ _ _).trans (State.settleAcknowledged_frame _ _ _)).sameLink q
  case tearDown p =>
    rw [(s.tearDownSteps_torn p).port]
    split
    · rename_i same; rw [same]; exact ⟨rfl, rfl, rfl, rfl, rfl⟩
    · exact .refl _
  case attach p fresh =>
    rw [State.attach, State.port_modPort]
    split
    · rename_i same; rw [same]; exact ⟨rfl, rfl, rfl, rfl, rfl⟩
    · exact .refl _
  case detach p lost free fresh =>
    rw [State.port_setPort]
    split
    · rename_i same; rw [same]; exact ⟨rfl, rfl, rfl, rfl, rfl⟩
    · exact .refl _
  case openGate => exact .refl _

theorem Move.linkInv {D E : Set RecIx} {s t : State} (move : Move D E s t) (inv : LinkInv s) : LinkInv t := by
  rw [linkInv_iff] at inv ⊢
  intro q
  rw [move.sameBoot.device]
  cases move with
  | claim ready move => exact (inv q).of_same (move.sameLink q)
  | store move =>
    refine (inv q).of_same ?_
    rw [State.port, State.port, move.only.ports]
    exact .refl _
  | link move =>
    cases move with
    | pin kind p c =>
      unfold State.changePin
      rw [State.port_setPort]
      split
      · rename_i same
        subst same
        split
        · exact PortUnit.change_linkOk (inv q) _ c
        · exact inv q
      · exact inv q
    | @reply p tag c status fields ready =>
      have ok := inv q
      rw [State.port_placeReply]
      split
      · rename_i same
        subst same
        exact ⟨ok.quiet, ok.driven, ok.transfer, ok.rx, fun _ _ h => nomatch h⟩
      · exact ok
    | own => exact inv q
    | hold => exact inv q
    | ginhPin => exact inv q
    | ginh => exact inv q

/-! ### The boundaries -/

theorem Outside.linkInv {s t : State} (outside : Outside s t) (inv : LinkInv s) : LinkInv t := by
  rw [outside.same]
  exact inv

theorem ResetBegun.linkInv {s t : State} (begun : ResetBegun s t) : LinkInv t := by
  rw [linkInv_iff]
  intro p
  rw [begun.cleared.ports]
  exact .silent rfl rfl (Or.inr begun.cleared.device) (Nat.zero_le 16) fun _ _ h => nomatch h

theorem BootSelected.linkInv {s t : State} (selected : BootSelected s t) (inReset : s.device = .inReset)
    (inv : LinkInv s) : LinkInv t := by
  rw [linkInv_iff] at inv ⊢
  intro p
  have ok := inv p
  obtain ⟨same, high, low⟩ := selected.ports p
  obtain ⟨transfer, sdo⟩ := ok.quiet (Or.inr inReset)
  have pins : (t.port p).pins = (s.port p).pins := by rw [same]
  have stays : (t.port p).transfer = none := by rw [same]; exact transfer
  have buffer : (t.port p).rx.length ≤ 16 := by rw [same]; exact ok.rx
  have pending : ∀ tag c, (t.port p).slot = .pending tag c → ∃ code params, wireOf c = some (p, code, params) := by
    rw [same]; exact ok.pending
  cases csn : (s.port p).pins.csn with
  | true => exact .silent stays ((high csn).trans sdo) (Or.inl (pins ▸ csn)) buffer pending
  | false =>
    refine .driving (pins ▸ csn) (by simp [selected.device]) (low csn) (fun t' found => ?_) buffer pending
    rw [stays] at found
    cases found

theorem State.endBoot_linkInv {s : State} (boot : s.device = .boot) (inv : LinkInv s) : LinkInv s.endBoot := by
  rw [linkInv_iff] at inv ⊢
  intro p
  have ok := inv p
  have port : s.endBoot.port p = s.port p := by rw [State.port, s.endBoot_only.ports]; rfl
  rw [port, s.endBoot_device]
  refine ⟨fun quiet => ok.quiet (Or.inl (quiet.resolve_right (by simp))), fun low _ => ok.driven low (by simp [boot]),
    ok.transfer, ok.rx, ok.pending⟩

theorem step_linkInv {s t : State} (row : step s = .next t) (inv : LinkInv s) : LinkInv t :=
  step_keeps (P := LinkInv) (fun move => move.linkInv) (fun outside => outside.linkInv) (fun begun _ => begun.linkInv)
    (fun inReset selected => selected.linkInv inReset) (fun boot => State.endBoot_linkInv boot)
    (fun _ inv => inv) row inv

/-- Settles O57: the device state by each boundary, the link by each pin change. -/
theorem deviceAndLinkInvariantsKept : Obligations.DeviceAndLinkInvariantsKept := by
  unfold Obligations.DeviceAndLinkInvariantsKept
  exact fun s t row => ⟨step_deviceInv row, step_linkInv row⟩

end Sys2Proof.Machine
end

section
/-! The classes of the rows and copies by their bytes (R66, R162, R192), and what a row and a copy as written read
as. -/

namespace Sys2Proof.Machine

/-! ### The classes of a row -/

theorem eq_blankRow_iff (row : Row) : row = blankRow ↔ ∀ i : Fin 32, row[i] = 0xFF#8 := by
  rw [← not_iff_not, ← Ne, ne_blankRow_iff, not_forall]

theorem reserveClass_eq_blank_iff (row : Row) : reserveClass row = .blank ↔ row = blankRow := by
  unfold reserveClass
  split
  · rename_i blank; exact iff_of_true rfl blank
  · rename_i written
    split <;> exact iff_of_false (fun h => nomatch h) written

theorem reserveClass_eq_valid_iff (row : Row) (floor : Word) : reserveClass row = .valid floor ↔
    row ≠ blankRow ∧ rowCrcMatches row = true ∧ rowWord row 4 = ~~~rowWord row 0 ∧ floor = rowWord row 0 ∧
      floor ≠ 0#32 := by
  unfold reserveClass
  split
  · rename_i blank; exact iff_of_false (fun h => nomatch h) fun h => h.1 blank
  · rename_i written
    split
    · rename_i good
      rw [Bool.and_eq_true, Bool.and_eq_true] at good
      obtain ⟨⟨crc, inverted⟩, nonzero⟩ := good
      constructor
      · intro same
        cases same
        exact ⟨written, crc, by simpa using inverted, rfl, by simpa using nonzero⟩
      · rintro ⟨-, -, -, rfl, -⟩; rfl
    · rename_i bad
      refine iff_of_false (fun h => nomatch h) ?_
      rintro ⟨-, crc, inverted, rfl, nonzero⟩
      exact bad (by simp [crc, inverted, nonzero])

theorem configRowClass_eq_blank_iff (row : Row) : configRowClass row = .blank ↔ row = blankRow := by
  unfold configRowClass
  split
  · rename_i blank; exact iff_of_true rfl blank
  · rename_i written
    split <;> exact iff_of_false (fun h => nomatch h) written

theorem configRowClass_eq_intact_iff (row : Row) :
    configRowClass row = .intact ↔ row ≠ blankRow ∧ rowCrcMatches row = true := by
  unfold configRowClass
  split
  · rename_i blank; exact iff_of_false (fun h => nomatch h) fun h => h.1 blank
  · rename_i written
    split
    · rename_i crc; exact iff_of_true rfl ⟨written, crc⟩
    · rename_i crc; exact iff_of_false (fun h => nomatch h) fun h => crc h.2

/-! ### A row as written -/

/-- A row from its fields is not blank where one of its bytes is 00h. -/
theorem rowOf_ne_blankRow {fields : List Byte} (i : Nat) (body : i < 30) (zero : fields.getD i 0#8 = 0#8) :
    rowOf fields ≠ blankRow := by
  rw [ne_blankRow_iff]
  refine ⟨⟨i, by omega⟩, ?_⟩
  have byte := rowOf_getD fields i body 0#8
  rw [List.getD_eq_getElem?_getD, Vector.getElem?_toList, Vector.getElem?_eq_getElem (by omega)] at byte
  rw [zero] at byte
  show (rowOf fields)[i] ≠ _
  rw [show (rowOf fields)[i] = 0#8 from byte]
  decide

theorem reserveRow_fill (floor : Word) {i : Nat} (low : 8 ≤ i) (high : i < 30) :
    (reserveRow floor).toList.getD i 0#8 = 0#8 := by
  rw [reserveRow, rowOf_getD _ _ high, List.getD_eq_getElem?_getD, List.getElem?_eq_none]
  · rfl
  · simpa [wordBytes] using low

/-- A reserve row as written is valid with its floor (R66). -/
theorem reserveClass_reserveRow {floor : Word} (nonzero : floor ≠ 0#32) :
    reserveClass (reserveRow floor) = .valid floor :=
  (reserveClass_eq_valid_iff _ _).mpr ⟨rowOf_ne_blankRow 8 (by decide) rfl, rowCrcMatches_rowOf _, by simp, by simp,
    nonzero⟩

theorem configRowClass_copyRowOne (seq : Half) (img : Image) : configRowClass (copyRowOne seq img) = .intact :=
  (configRowClass_eq_intact_iff _).mpr ⟨rowOf_ne_blankRow 29 (by decide) rfl, rowCrcMatches_rowOf _⟩

theorem configRowClass_copyRowTwo (seq : Half) (img : Image) : configRowClass (copyRowTwo seq img) = .intact :=
  (configRowClass_eq_intact_iff _).mpr ⟨rowOf_ne_blankRow 26 (by decide) rfl, rowCrcMatches_rowOf _⟩

theorem rowByte_rowOf (fields : List Byte) {k : Nat} (body : k < 30) :
    rowByte (rowOf fields) k = fields.getD k 0#8 := rowOf_getD _ _ body _

/-! ### The image that two rows hold -/

theorem Rights.ofBits_bits (r : Rights) : rightsOfBits r.bits = r := by
  obtain ⟨acquire, inspect, revoke, configure⟩ := r
  cases acquire <;> cases inspect <;> cases revoke <;> cases configure <;> rfl

theorem rightsByte_upper (r q : Rights) : (rightsByte r q).extractLsb' 4 4 = r.bits := by
  unfold rightsByte
  generalize r.bits = x, q.bits = y
  revert x y
  decide

theorem rightsByte_lower (r q : Rights) : (rightsByte r q).extractLsb' 0 4 = q.bits := by
  unfold rightsByte
  generalize r.bits = x, q.bits = y
  revert x y
  decide

/-- The rights in a byte, by its bits (11.3). -/
theorem rightsOfBits_extract (b : Byte) (k : Nat) : rightsOfBits (b.extractLsb' k 4) =
    ⟨b.getLsbD k, b.getLsbD (k + 1), b.getLsbD (k + 2), b.getLsbD (k + 3)⟩ := by
  simp [rightsOfBits]

theorem readImage_port (one two : Row) (p : Port) : (readImage one two).port p =
    readPort one ((rowByte one (3 + p.val / 2)).extractLsb' (if p.val % 2 = 0 then 4 else 0) 4) (5 + 6 * p.val) := by
  match p with
  | 0 => rfl
  | 1 => rfl
  | 2 => rfl
  | 3 => rfl

theorem readImage_chan (one two : Row) (ch : Channel) :
    (readImage one two).chan ch = readChannel two (2 + 6 * ch.val) := by
  match ch with
  | 0 => rfl
  | 1 => rfl
  | 2 => rfl
  | 3 => rfl

/-- The byte of row one that holds a port's rights, and their half of it. -/
theorem copyRowOne_rights (seq : Half) (img : Image) (p : Port) :
    (rowByte (copyRowOne seq img) (3 + p.val / 2)).extractLsb' (if p.val % 2 = 0 then 4 else 0) 4 =
      (img.port p).rights.bits := by
  unfold copyRowOne
  match p with
  | 0 => rw [rowByte_rowOf _ (by decide)]; exact rightsByte_upper _ _
  | 1 => rw [rowByte_rowOf _ (by decide)]; exact rightsByte_lower _ _
  | 2 => rw [rowByte_rowOf _ (by decide)]; exact rightsByte_upper _ _
  | 3 => rw [rowByte_rowOf _ (by decide)]; exact rightsByte_lower _ _

/-- The limits of a port in row one. -/
theorem copyRowOne_limits (seq : Half) (img : Image) (p : Port) :
    rowHalf (copyRowOne seq img) (5 + 6 * p.val) = (img.port p).classMask ∧
    rowHalf (copyRowOne seq img) (5 + 6 * p.val + 2) = (img.port p).maxLease ∧
    rowHalf (copyRowOne seq img) (5 + 6 * p.val + 4) = (img.port p).maxWait := by
  unfold copyRowOne
  match p with
  | 0 =>
    refine ⟨?_, ?_, ?_⟩ <;> rw [rowHalf_rowOf _ _ (by decide)] <;> exact half_halfBytes _
  | 1 =>
    refine ⟨?_, ?_, ?_⟩ <;> rw [rowHalf_rowOf _ _ (by decide)] <;> exact half_halfBytes _
  | 2 =>
    refine ⟨?_, ?_, ?_⟩ <;> rw [rowHalf_rowOf _ _ (by decide)] <;> exact half_halfBytes _
  | 3 =>
    refine ⟨?_, ?_, ?_⟩ <;> rw [rowHalf_rowOf _ _ (by decide)] <;> exact half_halfBytes _

theorem copyRowTwo_channel (seq : Half) (img : Image) (ch : Channel) :
    readChannel (copyRowTwo seq img) (2 + 6 * ch.val) = img.chan ch := by
  have fields : ∀ k : Channel, rowWord (copyRowTwo seq img) (2 + 6 * k.val) = (img.chan k).key ∧
      rowHalf (copyRowTwo seq img) (2 + 6 * k.val + 4) = (img.chan k).guard := by
    intro k
    unfold copyRowTwo
    match k with
    | 0 => exact ⟨(rowWord_rowOf _ _ (by decide)).trans (word_wordBytes _),
        (rowHalf_rowOf _ _ (by decide)).trans (half_halfBytes _)⟩
    | 1 => exact ⟨(rowWord_rowOf _ _ (by decide)).trans (word_wordBytes _),
        (rowHalf_rowOf _ _ (by decide)).trans (half_halfBytes _)⟩
    | 2 => exact ⟨(rowWord_rowOf _ _ (by decide)).trans (word_wordBytes _),
        (rowHalf_rowOf _ _ (by decide)).trans (half_halfBytes _)⟩
    | 3 => exact ⟨(rowWord_rowOf _ _ (by decide)).trans (word_wordBytes _),
        (rowHalf_rowOf _ _ (by decide)).trans (half_halfBytes _)⟩
  obtain ⟨key, guard⟩ := fields ch
  rw [readChannel, key, guard]

theorem Image.ext_fields {x y : Image} (frozen : x.frozen = y.frozen) (ports : ∀ p, x.port p = y.port p)
    (chans : ∀ ch, x.chan ch = y.chan ch) : x = y := by
  obtain ⟨xf, xp, xc⟩ := x
  obtain ⟨yf, yp, yc⟩ := y
  congr 1
  · ext1 i lt; exact ports ⟨i, lt⟩
  · ext1 i lt; exact chans ⟨i, lt⟩

theorem copyRowOne_frozen (seq : Half) (img : Image) :
    rowByte (copyRowOne seq img) 2 = if img.frozen then 1#8 else 0#8 := rowByte_rowOf _ (by decide)

/-- An image as written is the image read (11.3). -/
theorem readImage_written (seq : Half) (img : Image) : readImage (copyRowOne seq img) (copyRowTwo seq img) = img := by
  refine Image.ext_fields ?_ (fun p => ?_) fun ch => ?_
  · show (rowByte (copyRowOne seq img) 2 == 1#8) = img.frozen
    rw [copyRowOne_frozen]
    cases img.frozen <;> rfl
  · obtain ⟨mask, lease, wait⟩ := copyRowOne_limits seq img p
    rw [readImage_port, copyRowOne_rights, readPort, Rights.ofBits_bits, mask, lease, wait]
  · rw [readImage_chan, copyRowTwo_channel]

theorem copyRowOne_seq (seq : Half) (img : Image) : rowHalf (copyRowOne seq img) 0 = seq :=
  (rowHalf_rowOf _ _ (by decide)).trans (half_halfBytes _)

theorem copyRowTwo_seq (seq : Half) (img : Image) : rowHalf (copyRowTwo seq img) 0 = seq :=
  (rowHalf_rowOf _ _ (by decide)).trans (half_halfBytes _)

/-! ### The classes of a copy -/

theorem copyClass_eq_blank_iff (one two : Row) : copyClass one two = .blank ↔ one = blankRow ∧ two = blankRow := by
  rw [← configRowClass_eq_blank_iff, ← configRowClass_eq_blank_iff]
  unfold copyClass
  split
  · rename_i first second; exact iff_of_true rfl ⟨first, second⟩
  · rename_i first second
    refine iff_of_false ?_ fun h => by rw [first] at h; cases h.1
    dsimp only
    split <;> exact fun h => nomatch h
  · rename_i other _
    exact iff_of_false (fun h => nomatch h) fun h => other h.1 h.2

theorem copyClass_eq_valid_iff (one two : Row) (seq : Half) (img : Image) : copyClass one two = .valid seq img ↔
    configRowClass one = .intact ∧ configRowClass two = .intact ∧ seq = rowHalf one 0 ∧
      rowHalf two 0 = rowHalf one 0 ∧ seq ≠ 0#16 ∧ img = readImage one two ∧ rowByte one 2 ≤ 1#8 ∧
      img.inRange = true ∧ img.sharedKey = none ∧ img.changeable = true := by
  unfold copyClass
  split
  · rename_i first _
    exact iff_of_false (fun h => nomatch h) fun h => by rw [first] at h; cases h.1
  · rename_i first second
    dsimp only
    split
    · rename_i good
      simp only [Bool.and_eq_true, beq_iff_eq, bne_iff_ne, decide_eq_true_eq, Option.isNone_iff_eq_none] at good
      obtain ⟨⟨⟨⟨⟨same, nonzero⟩, frozen⟩, inRange⟩, unshared⟩, changeable⟩ := good
      constructor
      · intro valid
        cases valid
        exact ⟨first, second, rfl, same, nonzero, rfl, frozen, inRange, unshared, changeable⟩
      · rintro ⟨-, -, rfl, -, -, rfl, -⟩; rfl
    · rename_i bad
      refine iff_of_false (fun h => nomatch h) ?_
      rintro ⟨-, -, rfl, same, nonzero, rfl, frozen, inRange, unshared, changeable⟩
      exact bad (by simp [same, nonzero, frozen, inRange, unshared, changeable])
  · rename_i _ other
    exact iff_of_false (fun h => nomatch h) fun h => other h.1 h.2.1

/-- A copy as written is valid with its sequence and image (R162). -/
theorem copyClass_written {seq : Half} {img : Image} (nonzero : seq ≠ 0#16) (inRange : img.inRange = true)
    (unshared : img.sharedKey = none) (changeable : img.changeable = true) :
    copyClass (copyRowOne seq img) (copyRowTwo seq img) = .valid seq img := by
  refine (copyClass_eq_valid_iff _ _ _ _).mpr ⟨configRowClass_copyRowOne seq img, configRowClass_copyRowTwo seq img,
    (copyRowOne_seq seq img).symm, (copyRowTwo_seq seq img).trans (copyRowOne_seq seq img).symm, nonzero,
    (readImage_written seq img).symm, ?_, inRange, unshared, changeable⟩
  rw [copyRowOne_frozen]
  split <;> decide

/-! ### The tests of an image -/

theorem Image.inRange_iff (img : Image) : img.inRange = true ↔
    (∀ p, 10 ≤ (img.port p).maxLease.toNat ∧ (img.port p).maxLease.toNat ≤ 60000 ∧
      (img.port p).maxWait.toNat ≤ 60000) ∧ ∀ ch, (img.chan ch).guard.toNat ≤ 10000 := by
  simp [Image.inRange, List.all_eq_true, BitVec.le_def, and_assoc]

theorem Image.changeable_iff (img : Image) : img.changeable = true ↔
    img.frozen = true ∨ ∃ p, (img.port p).rights.configure = true := by
  simp [Image.changeable]

theorem Image.sharedKey_eq_none_iff (img : Image) : img.sharedKey = none ↔
    ∀ c d, c ≠ d → (img.chan c).key ≠ 0#32 → (img.chan c).key ≠ (img.chan d).key := by
  constructor
  · exact fun unshared c d other bound same => other (Image.chan_injective unshared bound same)
  · intro apart
    have pairs : ∀ c ∈ channelPairs, c.1 ≠ c.2 := by decide
    refine List.find?_eq_none.mpr fun c mem => ?_
    simp only [Bool.and_eq_true, bne_iff_ne, beq_iff_eq, not_and]
    exact apart c.1 c.2 (pairs c mem)

theorem crc16Shift_eq (c : Half) :
    crc16Shift c = if c.getLsbD 15 then (c <<< 1) ^^^ 0x1021#16 else c <<< 1 := by
  rw [crc16Shift, BitVec.msb_eq_getLsbD_last]

/-- Settles O43: each class by its test, each field at its offset, and both read back as written. -/
theorem rowClasses : Obligations.RowClasses := by
  unfold Obligations.RowClasses
  intro byte half word blank crcOk
  have blank_iff : ∀ r, r = blankRow ↔ blank r := eq_blankRow_iff
  have crc_iff : ∀ r, rowCrcMatches r = true ↔ crcOk r := rowCrcMatches_iff
  have word_eq : ∀ r k, rowWord r k = word r k := rowWord_eq_append
  refine ⟨rfl, fun l b => ?crc, fun r => ?row, fun one two => ?copy, fun floor => reserveClass_reserveRow,
    fun floor i => reserveRow_fill floor, fun seq img => ?written⟩
  case crc =>
    rw [crc16, crc16, List.foldl_append]
    simp only [List.foldl_cons, List.foldl_nil, crc16Byte, funext crc16Shift_eq]
  case row =>
    refine ⟨(reserveClass_eq_blank_iff r).trans (blank_iff r), fun floor => ?_,
      (configRowClass_eq_blank_iff r).trans (blank_iff r), ?_, fun side => ⟨beq_iff_eq, beq_iff_eq, beq_iff_eq⟩⟩
    · rw [reserveClass_eq_valid_iff, crc_iff, Ne, blank_iff, word_eq, word_eq]
    · rw [configRowClass_eq_intact_iff, crc_iff, Ne, blank_iff]
  case copy =>
    intro img
    refine ⟨beq_iff_eq, fun p => ?_, fun ch => ?_, ?_, fun seq i => ?_⟩
    · intro rights bit here
      rw [readImage_port, readPort, rightsOfBits_extract]
      have bits : ∀ k, bit k = rights.getLsbD ((if p.val % 2 = 0 then 4 else 0) + k) := by
        intro k
        show rights.getLsbD (if p.val % 2 = 0 then k + 4 else k) = _
        split
        · rw [Nat.add_comm]
        · rw [Nat.zero_add]
      rw [bits, bits, bits, bits]
      rfl
    · intro here
      rw [readImage_chan, readChannel, word_eq]
      rfl
    · rw [copyClass_eq_blank_iff, blank_iff, blank_iff]
    · have nonzero : seq ≠ 0#16 ↔ 1 ≤ seq.toNat := by
        rw [Nat.one_le_iff_ne_zero, Ne, Ne, ← BitVec.toNat_inj]; rfl
      have frozen : rowByte one 2 ≤ 1#8 ↔ byte one 2 = 0#8 ∨ byte one 2 = 1#8 := by
        show byte one 2 ≤ 1#8 ↔ _
        generalize byte one 2 = b
        revert b
        decide +kernel
      rw [copyClass_eq_valid_iff, nonzero, frozen, Image.inRange_iff, Image.sharedKey_eq_none_iff,
        Image.changeable_iff, and_assoc]
      constructor
      · rintro ⟨one', two', seq', same, bound, rfl, flag, rest⟩
        exact ⟨one', two', seq', same, bound, rfl, flag, rest⟩
      · rintro ⟨one', two', seq', same, bound, rfl, flag, rest⟩
        exact ⟨one', two', seq', same, bound, rfl, flag, rest⟩
  case written =>
    have fill : ∀ k, k = 26 ∨ k = 28 → rowHalf (copyRowTwo seq img) k = 0#16 := by
      rintro k (rfl | rfl)
      · rw [copyRowTwo, rowHalf_rowOf _ 26 (by decide)]
        show Sys2Proof.half 0#8 0#8 = 0#16
        decide
      · rw [copyRowTwo, rowHalf_rowOf _ 28 (by decide)]
        show Sys2Proof.half 0#8 0#8 = 0#16
        decide
    exact ⟨img.inRange_iff, img.changeable_iff, ⟨rowByte_rowOf (k := 29) _ (by decide), fill 26 (Or.inl rfl),
      fill 28 (Or.inr rfl)⟩, copyClass_written⟩

end Sys2Proof.Machine
end

section
/-! The floor along every row: FloorInv with the tests of an engine that serves its inputs, what programs a reserve
row, and what start-up selection makes of the rows a reset leaves. -/

namespace Sys2Proof.Machine

/-! ### What serving the inputs starts -/

/-- An engine that serves its inputs starts a request that waits at one of them. -/
theorem State.kickEngine_engine (s : State) : (s.kickEngine.store.engine = s.store.engine ∨
      ∃ req, s.kickEngine.store.engine = .busy req .first .erase ∧
        (s.store.advanceInput = some req ∨ s.store.commitInput = some req)) ∧
    (s.kickEngine.store.advanceInput = s.store.advanceInput ∨ s.kickEngine.store.advanceInput = none) := by
  by_cases idle : s.store.engine = .idle
  · cases low : s.supply.low with
    | true => rw [State.kickEngine_of_low idle low]; exact ⟨Or.inl rfl, Or.inl rfl⟩
    | false =>
      cases advance : s.store.advanceInput with
      | some req =>
        rw [State.kickEngine_of_advance idle low advance]
        exact ⟨Or.inr ⟨req, rfl, Or.inl rfl⟩, Or.inr rfl⟩
      | none =>
        cases commit : s.store.commitInput with
        | none => rw [State.kickEngine_of_noRequest idle low advance commit]; exact ⟨Or.inl rfl, Or.inl advance⟩
        | some req =>
          rw [State.kickEngine_of_commit idle low advance commit, State.startCommitRow]
          dsimp only
          split
          · split
            · exact ⟨Or.inl rfl, Or.inl advance⟩
            · exact ⟨Or.inr ⟨req, rfl, Or.inr rfl⟩, Or.inl advance⟩
          · exact ⟨Or.inr ⟨req, rfl, Or.inr rfl⟩, Or.inl advance⟩
  · rw [State.kickEngine_of_busy idle]; exact ⟨Or.inl rfl, Or.inl rfl⟩

theorem State.kickEngine_kept (s : State) : s.kickEngine.store.rows = s.store.rows ∧ s.kickEngine.tok = s.tok ∧
    s.kickEngine.device = s.device := by
  obtain ⟨engine, advance, commit, cfg, same, -⟩ := s.kickEngine_eq
  rw [same]
  exact ⟨rfl, rfl, rfl⟩

/-! ### The classes of the reserve rows -/

theorem State.reserveRowClass_of_rows {s t : State} (rows : t.store.rows = s.store.rows) (side : Side) :
    t.reserveRowClass side = s.reserveRowClass side := by
  rw [State.reserveRowClass, State.reserveRowClass, Store.row, Store.row, rows]

theorem State.reserveRowClass_valid_ne_zero {s : State} {side : Side} {floor : Word}
    (valid : s.reserveRowClass side = .valid floor) : floor ≠ 0#32 :=
  ((reserveClass_eq_valid_iff _ _).mp valid).2.2.2.2

/-- A row set: the class of its own side alone can change. -/
theorem State.reserveRowClass_setRow {s t : State} {r : ProgRow} {v : Row}
    (rows : t.store.rows = (s.store.setRow r v).rows) (side : Side) (other : r ≠ .reserve side) :
    t.reserveRowClass side = s.reserveRowClass side := by
  have row : t.store.row (.reserve side) = (s.store.setRow r v).row (.reserve side) := by
    rw [Store.row, Store.row, rows]
  rw [State.reserveRowClass, row, Store.row_setRow, if_neg other.symm]
  rfl

theorem Side.other_ne (side : Side) : side.other ≠ side := by cases side <;> decide

theorem Side.eq_other_of_ne {x side : Side} (other : x ≠ side) : x = side.other := by
  cases x <;> cases side <;> first | rfl | exact absurd rfl other

/-! ### The law -/

/-- FloorInv by name. -/
structure FloorLaw (s : State) : Prop where
  notBoth : ¬(s.reserveRowClass .a = .corrupt ∧ s.reserveRowClass .b = .corrupt)
  normal : s.tok.state = .normal → s.tok.active ≠ none
  active : s.device ≠ .inReset → ∀ side, s.tok.active = some side → s.reserveRowClass side = .valid s.tok.F
  low : s.device ≠ .inReset → s.tok.active = none → s.tok.F ≤ 1#32
  boot : s.device = .boot → s.tok.active = none → ∀ side floor, s.reserveRowClass side ≠ .valid floor
  verify : ∀ req attempt, s.store.engine = .busy req attempt .verify → s.store.row req.row = req.bytes
  advances : ∀ req side, s.advances req → req.row = .reserve side →
    s.tok.active ≠ some side ∧ (s.tok.active = none → s.reserveRowClass side.other = .blank) ∧
    ∃ floor, floor ≠ 0#32 ∧ s.tok.F ≤ floor ∧ req.bytes = reserveRow floor

theorem floorInv_iff (s : State) : FloorInv s ↔ FloorLaw s := by
  constructor
  · rintro ⟨notBoth, normal, rows, boot, verify, advances⟩
    exact ⟨notBoth, normal, fun running => (rows running).1, fun running => (rows running).2, boot, verify, advances⟩
  · rintro ⟨notBoth, normal, active, low, boot, verify, advances⟩
    exact ⟨notBoth, normal, fun running => ⟨active running, low running⟩, boot, verify, advances⟩

theorem FloorLaw.of_same {s t : State} (law : FloorLaw s) (rows : t.store.rows = s.store.rows)
    (F : t.tok.F = s.tok.F) (active : t.tok.active = s.tok.active)
    (normal : t.tok.state = .normal → s.tok.state = .normal) (device : t.device = s.device)
    (verify : ∀ req attempt, t.store.engine = .busy req attempt .verify →
      s.store.engine = .busy req attempt .verify)
    (advances : ∀ req side, t.advances req → req.row = .reserve side → s.advances req) : FloorLaw t := by
  have classes := State.reserveRowClass_of_rows rows
  constructor
  case notBoth => rw [classes, classes]; exact law.notBoth
  case normal => rw [active]; exact fun state => law.normal (normal state)
  case active => simp only [device, active, classes, F]; exact law.active
  case low => rw [device, active, F]; exact law.low
  case boot => simp only [device, active, classes]; exact law.boot
  case verify =>
    intro req attempt engine
    rw [Store.row, rows]
    exact law.verify req attempt (verify req attempt engine)
  case advances =>
    intro req side goes row
    rw [active, classes, F]
    exact law.advances req side (advances req side goes row) row

theorem FloorLaw.of_store {s t : State} (law : FloorLaw s) (store : t.store = s.store)
    (F : t.tok.F = s.tok.F) (active : t.tok.active = s.tok.active)
    (normal : t.tok.state = .normal → s.tok.state = .normal) (device : t.device = s.device) : FloorLaw t :=
  law.of_same (by rw [store]) F active normal device (fun _ _ engine => by rw [store] at engine; exact engine)
    fun req side goes _ => by rw [State.advances, store] at goes; exact goes

theorem RowRequest.isAdvance_of_row {req : RowRequest} {side : Side} (row : req.row = .reserve side) :
    req.isAdvance = true := by rw [RowRequest.isAdvance, row]

theorem RowRequest.row_of_isAdvance {req : RowRequest} (advance : req.isAdvance = true) :
    ∃ side, req.row = .reserve side := by
  unfold RowRequest.isAdvance at advance
  split at advance
  · rename_i side row; exact ⟨side, row⟩
  · cases advance
  · cases advance

/-- An engine that serves its inputs (R158). -/
theorem FloorLaw.kickEngine {s : State} (law : FloorLaw s)
    (commit : ∀ req ∈ s.store.commitInput, req.isAdvance = false) : FloorLaw s.kickEngine := by
  obtain ⟨rows, tok, device⟩ := s.kickEngine_kept
  obtain ⟨engine, input⟩ := s.kickEngine_engine
  refine law.of_same rows (by rw [tok]) (by rw [tok]) (by rw [tok]; exact id) device (fun req attempt verifies => ?_)
    fun req side goes row => ?_
  · rcases engine with same | ⟨other, started, -⟩
    · rw [same] at verifies; exact verifies
    · rw [started] at verifies; cases verifies
  · rcases goes with runs | waits
    · rcases engine with same | ⟨other, started, fromAdvance | fromCommit⟩
      · rw [same] at runs; exact Or.inl runs
      · rw [started] at runs; cases runs; exact Or.inr fromAdvance
      · rw [started] at runs
        cases runs
        have isCommit := commit req fromCommit
        rw [RowRequest.isAdvance_of_row row] at isCommit
        cases isCommit
    · rcases input with same | cleared
      · rw [same] at waits; exact Or.inr waits
      · rw [cleared] at waits; cases waits

/-! ### An advance requested -/

theorem nextFloor_ne_zero (F : Word) : nextFloor F ≠ 0#32 := by
  unfold nextFloor
  split
  · decide
  · rename_i room
    intro zero
    have bound := F.isLt
    have most : maxWord.toNat = 4294967295 := rfl
    rw [BitVec.lt_def, BitVec.toNat_sub, most, BitVec.toNat_ofNat] at room
    have sum := congrArg BitVec.toNat zero
    rw [BitVec.toNat_add, BitVec.toNat_ofNat, BitVec.toNat_ofNat] at sum
    omega

theorem advanceTarget_ne_active (active : Option Side) (x y : ReserveClass) :
    active ≠ some (advanceTarget active x y) := by
  intro own
  cases active with
  | none => cases own
  | some side => cases side <;> cases own

/-- With no active row the other row is blank, where neither row is valid and not both are corrupt (R67). -/
theorem State.other_blank_of_target {s : State} (law : FloorLaw s) {x y : ReserveClass}
    (first : s.reserveRowClass .a = x) (second : s.reserveRowClass .b = y)
    (invalid : ∀ side floor, s.reserveRowClass side ≠ .valid floor) :
    s.reserveRowClass (advanceTarget none x y).other = .blank := by
  have notBoth := law.notBoth
  rw [first, second] at notBoth
  cases x with
  | valid floor => exact absurd first (invalid .a floor)
  | blank =>
    cases y with
    | valid floor => exact absurd second (invalid .b floor)
    | blank => exact second
    | corrupt => exact first
  | corrupt =>
    cases y with
    | valid floor => exact absurd second (invalid .b floor)
    | blank => exact second
    | corrupt => exact absurd ⟨rfl, rfl⟩ notBoth

/-- An advance is requested (R56, R67). -/
theorem FloorLaw.requestAdvance {s : State} (law : FloorLaw s)
    (commit : ∀ req ∈ s.store.commitInput, req.isAdvance = false)
    (invalid : s.tok.active = none → ∀ side floor, s.reserveRowClass side ≠ .valid floor) :
    FloorLaw s.requestAdvance := by
  refine FloorLaw.kickEngine ?_ commit
  refine ⟨law.notBoth, (fun normal => nomatch normal), law.active, law.low, law.boot, law.verify,
    fun req side goes row => ?_⟩
  rcases goes with runs | waits
  · exact law.advances req side (Or.inl runs) row
  · cases waits
    cases row
    refine ⟨advanceTarget_ne_active _ _ _, fun inactive => ?_, nextFloor s.tok.F, nextFloor_ne_zero _,
      le_nextFloor _, rfl⟩
    have blank := State.other_blank_of_target law rfl rfl (invalid inactive)
    have inactivity : s.tok.active = none := inactive
    rw [inactivity]
    exact blank

theorem FloorLaw.lowWaterTest {s : State} (law : FloorLaw s)
    (commit : ∀ req ∈ s.store.commitInput, req.isAdvance = false) : FloorLaw s.lowWaterTest := by
  unfold State.lowWaterTest
  split
  · rename_i test
    exact law.requestAdvance commit fun inactive => absurd inactive (law.normal test.1)
  · exact law

theorem FloorLaw.drawToken {s : State} (law : FloorLaw s)
    (commit : ∀ req ∈ s.store.commitInput, req.isAdvance = false) : FloorLaw s.drawToken := by
  unfold State.drawToken
  dsimp only
  split
  · exact law.of_store rfl rfl rfl (fun normal => nomatch normal) rfl
  · exact FloorLaw.lowWaterTest (s := { s with tok := { s.tok with G := s.tok.G + 1#32 } })
      (law.of_store rfl rfl rfl id rfl) commit

theorem ClaimMove.floorLaw {D E : Set RecIx} {s t : State} (move : ClaimMove D E s t) (tokens : TokenInv s)
    (law : FloorLaw s) : FloorLaw t := by
  have device := move.sameBoot.device
  rcases move.token with ⟨tok, store, -⟩ | ⟨store, demand, tok⟩
  · exact (law.drawToken tokens.law.commit).of_store store (by rw [tok]) (by rw [tok]) (by rw [tok]; exact id)
      (device.trans s.drawToken_frame.device.symm)
  · exact law.of_store store (by rw [tok]) (by rw [tok]) (by rw [tok]; exact id) device

/-! ### A row programmed -/

section
variable {s t : State} {req : RowRequest} {attempt : Attempt} {phase : Phase}

/-- The row beside one that an advance programs is not corrupt. -/
theorem FloorLaw.other_sound (law : FloorLaw s) (running : s.device ≠ .inReset) {side : Side}
    (goes : s.advances req) (row : req.row = .reserve side) : s.reserveRowClass side.other ≠ .corrupt := by
  obtain ⟨apart, inactive, -⟩ := law.advances req side goes row
  cases active : s.tok.active with
  | none => rw [inactive active]; simp
  | some x =>
    rw [active] at apart
    have other : x = side.other := Side.eq_other_of_ne fun same => apart (by rw [same])
    rw [← other, law.active running x active]
    simp

theorem State.notBoth_of_other {u : State} {side : Side} (sound : u.reserveRowClass side.other ≠ .corrupt) :
    ¬(u.reserveRowClass .a = .corrupt ∧ u.reserveRowClass .b = .corrupt) := by
  rintro ⟨first, second⟩
  cases side with
  | a => exact sound second
  | b => exact sound first

/-- The row of the request in the engine is set to whatever content. -/
theorem FloorLaw.setRow (law : FloorLaw s) (tokens : TokenLaw s) (engine : s.store.engine = .busy req attempt phase)
    {v : Row} (rows : t.store.rows = (s.store.setRow req.row v).rows)
    (requests : ∀ r, t.store.engine.request = some r → r = req)
    (verify : ∀ r a, t.store.engine = .busy r a .verify → v = req.bytes)
    (input : t.store.advanceInput = s.store.advanceInput) (tok : t.tok = s.tok) (device : t.device = s.device) :
    FloorLaw t := by
  have ready := tokens.ready_of_busy engine
  have running : s.device ≠ .inReset := by simp [ready]
  have runs : s.store.engine.request = some req := by rw [engine]; rfl
  have kept := State.reserveRowClass_setRow rows
  have goesFrom : ∀ r, t.advances r → r = req ∨ s.store.advanceInput = some r := by
    rintro r (going | waits)
    · exact Or.inl (requests r going)
    · exact Or.inr (input ▸ waits)
  constructor
  case notBoth =>
    by_cases advance : req.isAdvance = true
    · obtain ⟨side, row⟩ := RowRequest.row_of_isAdvance advance
      refine State.notBoth_of_other (side := side) ?_
      rw [kept _ (by rw [row]; intro same; exact Side.other_ne side (ProgRow.reserve.inj same).symm)]
      exact law.other_sound running (Or.inl runs) row
    · have same : ∀ side, t.reserveRowClass side = s.reserveRowClass side := fun side =>
        kept side fun row => advance (RowRequest.isAdvance_of_row row)
      rw [same, same]
      exact law.notBoth
  case normal => rw [tok]; exact law.normal
  case active =>
    intro _ side active
    rw [tok] at active ⊢
    rw [kept side fun row => (law.advances req side (Or.inl runs) row).1 active]
    exact law.active running side active
  case low => rw [tok, device]; exact law.low
  case boot => intro boot; rw [device, ready] at boot; cases boot
  case verify =>
    intro r a verifies
    have own := requests r (by rw [verifies]; rfl)
    subst own
    rw [Store.row, rows]
    exact (s.store.row_setRow_self r.row v).trans (verify r a verifies)
  case advances =>
    intro r side goes row
    rw [tok]
    rcases goesFrom r goes with rfl | waits
    · obtain ⟨apart, inactive, floor⟩ := law.advances r side (Or.inl runs) row
      refine ⟨apart, fun inactivity => ?_, floor⟩
      rw [kept _ (by rw [row]; intro same; exact Side.other_ne side (ProgRow.reserve.inj same).symm)]
      exact inactive inactivity
    · obtain ⟨apart, inactive, floor⟩ := law.advances r side (Or.inr waits) row
      refine ⟨apart, fun inactivity => ?_, floor⟩
      have alone := (tokens.waiting r waits).2.2.2 req runs
      rw [kept _ fun own => by rw [RowRequest.isAdvance_of_row own] at alone; cases alone]
      exact inactive inactivity

/-- The engine returns to IDLE. -/
theorem FloorLaw.engineIdle (law : FloorLaw s) : FloorLaw s.engineIdle :=
  law.of_same rfl rfl rfl id rfl (fun _ _ verifies => nomatch verifies)
    fun _ _ goes _ => goes.elim (fun runs => nomatch runs) Or.inr

/-- A row has succeeded (R58, R173, R174). -/
theorem FloorLaw.rowSucceeded (law : FloorLaw s) (tokens : TokenLaw s)
    (engine : s.store.engine = .busy req attempt .verify) :
    FloorLaw (s.engineIdle.rowSucceeded req) ∧ s.tok.F ≤ (s.engineIdle.rowSucceeded req).tok.F := by
  have ready := tokens.ready_of_busy engine
  have runs : s.store.engine.request = some req := by rw [engine]; rfl
  unfold State.rowSucceeded
  split
  case h_1 side row =>
    obtain ⟨-, -, floor, nonzero, above, bytes⟩ := law.advances req side (Or.inl runs) row
    have written := law.verify req attempt engine
    have noInput := tokens.noInput runs (RowRequest.isAdvance_of_row row)
    have isValid : s.reserveRowClass side = .valid (rowWord req.bytes 0) := by
      rw [State.reserveRowClass, ← row, written, bytes, reserveClass_reserveRow nonzero, rowWord_reserveRow]
    have completed : FloorLaw (s.engineIdle.raiseFloor side req.bytes) := by
      refine ⟨law.notBoth, (fun _ missing => nomatch missing), fun _ x active => ?_, (fun _ missing => nomatch missing),
        (fun _ missing => nomatch missing), (fun _ _ verifies => nomatch verifies), fun r x goes _ => ?_⟩
      · cases active
        exact isValid
      · rcases goes with going | waits
        · cases going
        · rw [show s.store.advanceInput = some r from waits] at noInput
          cases noInput
    refine ⟨completed.lowWaterTest tokens.commit, ?_⟩
    show s.tok.F ≤ (State.lowWaterTest _).tok.F
    rw [(State.lowWaterTest_frame _).floor, bytes, rowWord_reserveRow]
    exact above
  case h_2 side row =>
    unfold State.handSecondRow
    split
    · exact ⟨law.engineIdle.of_same rfl rfl rfl id rfl (fun _ _ verifies => verifies) fun _ _ goes _ => goes,
        BitVec.le_refl _⟩
    · exact ⟨law.engineIdle, BitVec.le_refl _⟩
  case h_3 side row => exact ⟨law.engineIdle.of_store rfl rfl rfl id rfl, BitVec.le_refl _⟩

theorem FloorLaw.rowFailed (law : FloorLaw s) (req : RowRequest) : FloorLaw (s.rowFailed req) := by
  unfold State.rowFailed
  split
  · exact law.of_store rfl rfl rfl (fun normal => nomatch normal) rfl
  · exact law.of_store rfl rfl rfl id rfl
  · exact law.of_store rfl rfl rfl id rfl

theorem State.rowFailed_F (s : State) (req : RowRequest) : (s.rowFailed req).tok.F = s.tok.F := by
  unfold State.rowFailed
  split <;> rfl

theorem State.rowFailed_commitInput (s : State) (req : RowRequest) :
    (s.rowFailed req).store.commitInput = s.store.commitInput := by
  unfold State.rowFailed
  split <;> rfl

end

theorem StoreMove.floorLaw {s t : State} (move : StoreMove s t) (tokens : TokenInv s) (law : FloorLaw s) :
    FloorLaw t ∧ s.tok.F ≤ t.tok.F := by
  have held := tokens.law
  have still : ∀ {u : State}, FloorLaw u → u.tok.F = s.tok.F → FloorLaw u ∧ s.tok.F ≤ u.tok.F :=
    fun kept F => ⟨kept, by rw [F]; exact BitVec.le_refl _⟩
  have own : ∀ {req : RowRequest} {a : Attempt} {ph : Phase} r, (Engine.busy req a ph).request = some r → r = req :=
    fun r runs => (Option.some.inj runs).symm
  cases move
  case openImage => exact still (law.of_store rfl rfl rfl id rfl) rfl
  case setImage => exact still (law.of_store rfl rfl rfl id rfl) rfl
  case abort => exact still (law.of_store rfl rfl rfl id rfl) rfl
  case commit img ready opened image good =>
    refine still (FloorLaw.kickEngine ?_ fun req waits => ?_)
      (by rw [State.acceptCommit, (State.kickEngine_kept _).2.1])
    · exact law.of_same rfl rfl rfl id rfl (fun _ _ verifies => verifies) fun _ _ goes _ => goes
    · cases waits
      rfl
  case erased req attempt engine =>
    exact still (law.setRow held engine (v := blankRow) rfl own (fun _ _ verifies => nomatch verifies) rfl rfl rfl) rfl
  case written req attempt engine =>
    exact still (law.setRow held engine (v := req.bytes) rfl own (fun _ _ _ => rfl) rfl rfl rfl) rfl
  case verified req attempt engine =>
    obtain ⟨kept, above⟩ := law.rowSucceeded held engine
    refine ⟨kept.kickEngine (held.rowSucceeded engine).commit, ?_⟩
    rw [(State.kickEngine_kept _).2.1]
    exact above
  case retried req engine =>
    exact still (law.setRow held engine (v := req.row.failedRow s.free) rfl own
      (fun _ _ verifies => nomatch verifies) rfl rfl rfl) rfl
  case failed req engine =>
    have spoilt : FloorLaw (s.spoilRow req).engineIdle :=
      law.setRow held engine (v := req.row.failedRow s.free) rfl (fun _ runs => nomatch runs)
        (fun _ _ verifies => nomatch verifies) rfl rfl rfl
    refine still ((spoilt.rowFailed req).kickEngine ?_) ?_
    · rw [State.rowFailed_commitInput]; exact held.commit
    · rw [(State.kickEngine_kept _).2.1, State.rowFailed_F]; rfl
  case lowSet => exact still (law.of_store rfl rfl rfl id rfl) rfl
  case lowClear =>
    refine still (FloorLaw.kickEngine ?_ held.commit) (by rw [(State.kickEngine_kept _).2.1])
    exact law.of_store rfl rfl rfl id rfl

theorem Move.floorLaw {D E : Set RecIx} {s t : State} (move : Move D E s t) (tokens : TokenInv s) (law : FloorLaw s) :
    FloorLaw t ∧ s.tok.F ≤ t.tok.F := by
  cases move with
  | claim ready move =>
    refine ⟨move.floorLaw tokens law, ?_⟩
    rcases move.token with ⟨tok, -⟩ | ⟨-, demand, tok⟩
    · rw [tok, s.drawToken_frame.floor]; exact BitVec.le_refl _
    · rw [tok]; exact BitVec.le_refl _
  | store move => exact move.floorLaw tokens law
  | link move =>
    have only := move.only
    exact ⟨law.of_store only.store (by rw [only.tok]) (by rw [only.tok]) (by rw [only.tok]; exact id)
      move.sameBoot.device, by rw [only.tok]; exact BitVec.le_refl _⟩

/-! ### The committed floor -/

/-- The rows stand still while no engine programs one. -/
theorem StoreMove.rows_of_notReady {s t : State} (move : StoreMove s t) (tokens : TokenInv s)
    (notReady : s.device ≠ .ready) : t.store.rows = s.store.rows := by
  cases move
  case openImage => rfl
  case setImage => rfl
  case abort => rfl
  case commit ready _ _ _ => exact absurd ready notReady
  case erased req attempt engine => exact absurd (tokens.law.ready_of_busy engine) notReady
  case written req attempt engine => exact absurd (tokens.law.ready_of_busy engine) notReady
  case verified req attempt engine => exact absurd (tokens.law.ready_of_busy engine) notReady
  case retried req engine => exact absurd (tokens.law.ready_of_busy engine) notReady
  case failed req engine => exact absurd (tokens.law.ready_of_busy engine) notReady
  case lowSet => rfl
  case lowClear => exact (State.kickEngine_kept _).1

theorem State.committedFloor_of_running {s : State} (running : s.device ≠ .inReset) : s.committedFloor = s.tok.F := by
  unfold State.committedFloor
  split
  · rename_i inReset; exact absurd inReset running
  · rfl
  · rfl

theorem State.committedFloor_of_inReset {s : State} (inReset : s.device = .inReset) :
    s.committedFloor = (selectTokens (s.reserveRowClass .a) (s.reserveRowClass .b)).F := by
  simp [State.committedFloor, inReset]

theorem State.committedFloor_of_rows {s t : State} (device : t.device = s.device) (F : t.tok.F = s.tok.F)
    (rows : t.store.rows = s.store.rows) : t.committedFloor = s.committedFloor := by
  unfold State.committedFloor
  rw [device, F, State.reserveRowClass_of_rows rows, State.reserveRowClass_of_rows rows]

theorem Move.committedFloor_le {D E : Set RecIx} {s t : State} (move : Move D E s t) (tokens : TokenInv s)
    (law : FloorLaw s) : s.committedFloor ≤ t.committedFloor := by
  have device := move.sameBoot.device
  by_cases inReset : s.device = .inReset
  · have notReady : s.device ≠ .ready := by simp [inReset]
    have rows : t.store.rows = s.store.rows := by
      cases move with
      | claim ready => exact absurd ready notReady
      | store move => exact move.rows_of_notReady tokens notReady
      | link move => rw [move.only.store]
    rw [State.committedFloor_of_inReset inReset, State.committedFloor_of_inReset (device.trans inReset),
      State.reserveRowClass_of_rows rows, State.reserveRowClass_of_rows rows]
    exact BitVec.le_refl _
  · rw [State.committedFloor_of_running inReset, State.committedFloor_of_running (by rw [device]; exact inReset)]
    exact (move.floorLaw tokens law).2

/-! ### Start-up selection -/

/-- The floor selected is no lower than that of a valid row. -/
theorem le_selectTokens_of_valid {x y : ReserveClass} {floor : Word} (valid : x = .valid floor ∨ y = .valid floor) :
    floor ≤ (selectTokens x y).F := by
  rcases valid with rfl | rfl
  · cases y with
    | valid other =>
      by_cases lower : floor < other
      · rw [selectTokens_of_floor (a := .valid floor) (b := .valid other) (congrArg some (if_pos lower))]
        exact BitVec.le_of_lt lower
      · rw [selectTokens_of_floor (a := .valid floor) (b := .valid other) (congrArg some (if_neg lower))]
        exact BitVec.le_refl _
    | blank => exact BitVec.le_refl _
    | corrupt => exact BitVec.le_refl _
  · cases x with
    | valid other =>
      by_cases lower : other < floor
      · rw [selectTokens_of_floor (a := .valid other) (b := .valid floor) (congrArg some (if_pos lower))]
        exact BitVec.le_refl _
      · rw [selectTokens_of_floor (a := .valid other) (b := .valid floor) (congrArg some (if_neg lower))]
        exact BitVec.not_lt.mp lower
    | blank => exact BitVec.le_refl _
    | corrupt => exact BitVec.le_refl _

/-- The floor selected is at least 1 where not both rows are corrupt. -/
theorem one_le_selectTokens {x y : ReserveClass} (notBoth : ¬(x = .corrupt ∧ y = .corrupt))
    (nonzero : ∀ floor, x = .valid floor ∨ y = .valid floor → floor ≠ 0#32) : 1#32 ≤ (selectTokens x y).F := by
  have least : ∀ floor, x = .valid floor ∨ y = .valid floor → 1#32 ≤ (selectTokens x y).F := by
    intro floor valid
    have above := le_selectTokens_of_valid valid
    have positive := nonzero floor valid
    bv_omega
  cases x with
  | valid floor => exact least floor (Or.inl rfl)
  | blank =>
    cases y with
    | valid floor => exact least floor (Or.inr rfl)
    | blank => exact BitVec.le_refl _
    | corrupt => exact BitVec.le_refl _
  | corrupt =>
    cases y with
    | valid floor => exact least floor (Or.inr rfl)
    | blank => exact BitVec.le_refl _
    | corrupt => exact absurd ⟨rfl, rfl⟩ notBoth

/-- The active row selected holds the floor; with none the floor is at most 1, and neither row is valid (R68). -/
theorem selectTokens_active {x y : ReserveClass} :
    (selectTokens x y).state ≠ .normal ∧
    (∀ side, (selectTokens x y).active = some side →
      (match side with | .a => x | .b => y) = .valid (selectTokens x y).F) ∧
    ((selectTokens x y).active = none → (selectTokens x y).F ≤ 1#32 ∧
      ∀ floor, x ≠ .valid floor ∧ y ≠ .valid floor) := by
  have chosen : ∀ {floor : Word} {active : Option Side}, selectFloor x y = some (floor, active) →
      (∀ side, active = some side → (match side with | .a => x | .b => y) = .valid floor) →
      (active = none → floor ≤ 1#32 ∧ ∀ f, x ≠ .valid f ∧ y ≠ .valid f) →
      (selectTokens x y).state ≠ .normal ∧
      (∀ side, (selectTokens x y).active = some side →
        (match side with | .a => x | .b => y) = .valid (selectTokens x y).F) ∧
      ((selectTokens x y).active = none →
        (selectTokens x y).F ≤ 1#32 ∧ ∀ f, x ≠ .valid f ∧ y ≠ .valid f) := by
    intro floor active selected holds inactive
    rw [selectTokens_of_floor selected]
    refine ⟨?_, holds, inactive⟩
    dsimp only
    split <;> simp
  cases x with
  | valid fa =>
    cases y with
    | valid fb =>
      by_cases lower : fa < fb
      · exact chosen (congrArg some (if_pos lower)) (fun side own => by cases own; rfl) (fun h => nomatch h)
      · exact chosen (congrArg some (if_neg lower)) (fun side own => by cases own; rfl) (fun h => nomatch h)
    | blank => exact chosen rfl (fun side own => by cases own; rfl) (fun h => nomatch h)
    | corrupt => exact chosen rfl (fun side own => by cases own; rfl) (fun h => nomatch h)
  | blank =>
    cases y with
    | valid fb => exact chosen rfl (fun side own => by cases own; rfl) (fun h => nomatch h)
    | blank => exact chosen rfl (fun _ own => nomatch own) fun _ => ⟨BitVec.le_refl _, fun f => by simp⟩
    | corrupt => exact chosen rfl (fun _ own => nomatch own) fun _ => ⟨BitVec.le_refl _, fun f => by simp⟩
  | corrupt =>
    cases y with
    | valid fb => exact chosen rfl (fun side own => by cases own; rfl) (fun h => nomatch h)
    | blank => exact chosen rfl (fun _ own => nomatch own) fun _ => ⟨BitVec.le_refl _, fun f => by simp⟩
    | corrupt => exact ⟨by simp [selectTokens, selectFloor], (fun _ own => nomatch own), fun _ =>
        ⟨by simp [selectTokens, selectFloor], fun f => by simp⟩⟩

/-! ### The boundaries -/

/-- The classes of the reserve rows that a reset leaves: that of a row in progress may change. -/
theorem ResetBegun.reserveRowClass {s t : State} (begun : ResetBegun s t) (side : Side)
    (other : ∀ req, s.store.engine.request = some req → req.row ≠ .reserve side) :
    t.reserveRowClass side = s.reserveRowClass side := by
  rw [State.reserveRowClass, State.reserveRowClass, Store.row, Store.row]
  rw [begun.cleared.rows (ProgRow.reserve side).index fun req attempt phase busy same =>
    other req (by rw [busy]; rfl) (ProgRow.index_injective same)]

/-- What the rows behind a reset keep of the floor. -/
theorem ResetBegun.rows_kept {s t : State} (begun : ResetBegun s t) (tokens : TokenInv s) (law : FloorLaw s) :
    ¬(t.reserveRowClass .a = .corrupt ∧ t.reserveRowClass .b = .corrupt) ∧
      s.committedFloor ≤ (selectTokens (t.reserveRowClass .a) (t.reserveRowClass .b)).F := by
  by_cases advance : ∃ req side, s.store.engine.request = some req ∧ req.row = .reserve side
  · obtain ⟨req, side, runs, row⟩ := advance
    have ready : s.device = .ready := by
      cases engine : s.store.engine with
      | idle => rw [engine] at runs; cases runs
      | busy r a ph => exact tokens.law.ready_of_busy engine
    have running : s.device ≠ .inReset := by simp [ready]
    have kept : t.reserveRowClass side.other = s.reserveRowClass side.other :=
      begun.reserveRowClass side.other fun r going => by
        cases runs.symm.trans going
        rw [row]
        intro same
        exact Side.other_ne side (ProgRow.reserve.inj same).symm
    have notBoth := State.notBoth_of_other (u := t) (side := side)
      (by rw [kept]; exact law.other_sound running (Or.inl runs) row)
    refine ⟨notBoth, ?_⟩
    rw [State.committedFloor_of_running running]
    cases active : s.tok.active with
    | none =>
      refine BitVec.le_trans (law.low running active) (one_le_selectTokens notBoth fun floor valid => ?_)
      rcases valid with valid | valid
      · exact State.reserveRowClass_valid_ne_zero valid
      · exact State.reserveRowClass_valid_ne_zero valid
    | some x =>
      have other : x = side.other := Side.eq_other_of_ne fun same =>
        (law.advances req side (Or.inl runs) row).1 (by rw [active, same])
      have valid : t.reserveRowClass x = .valid s.tok.F := by
        rw [other, kept, ← other]
        exact law.active running x active
      exact le_selectTokens_of_valid (by cases x <;> [exact Or.inl valid; exact Or.inr valid])
  · have kept : ∀ side, t.reserveRowClass side = s.reserveRowClass side := fun side =>
      begun.reserveRowClass side fun req runs row => advance ⟨req, side, runs, row⟩
    rw [kept, kept]
    refine ⟨law.notBoth, ?_⟩
    by_cases inReset : s.device = .inReset
    · rw [State.committedFloor_of_inReset inReset]; exact BitVec.le_refl _
    · rw [State.committedFloor_of_running inReset]
      cases active : s.tok.active with
      | none =>
        refine BitVec.le_trans (law.low inReset active) (one_le_selectTokens law.notBoth fun floor valid => ?_)
        rcases valid with valid | valid
        · exact State.reserveRowClass_valid_ne_zero valid
        · exact State.reserveRowClass_valid_ne_zero valid
      | some x =>
        have valid := law.active inReset x active
        exact le_selectTokens_of_valid (by cases x <;> [exact Or.inl valid; exact Or.inr valid])

theorem ResetBegun.floorLaw {s t : State} (begun : ResetBegun s t) (tokens : TokenInv s) (law : FloorLaw s) :
    FloorLaw t := by
  have device := begun.cleared.device
  obtain ⟨engine, advance, -⟩ := begun.cleared.engine
  refine ⟨(begun.rows_kept tokens law).1, fun normal => ?_, fun running => absurd device running,
    fun running => absurd device running, fun boot => ?_, fun req attempt verifies => ?_, fun req side goes => ?_⟩
  · rw [begun.tok] at normal; cases normal
  · rw [device] at boot; cases boot
  · rw [engine] at verifies; cases verifies
  · rcases goes with runs | waits
    · rw [engine] at runs; cases runs
    · rw [advance] at waits; cases waits

theorem BootSelected.floorLaw {s t : State} (selected : BootSelected s t) (inReset : s.device = .inReset)
    (tokens : TokenInv s) (law : FloorLaw s) : FloorLaw t := by
  obtain ⟨engine, advance, -⟩ := tokens.law.notReady (by simp [inReset])
  obtain ⟨notNormal, holds, inactive⟩ := selectTokens_active (x := s.reserveRowClass .a) (y := s.reserveRowClass .b)
  have classes : ∀ side, t.reserveRowClass side = s.reserveRowClass side :=
    State.reserveRowClass_of_rows (by rw [selected.store])
  rw [← selected.tok] at notNormal holds inactive
  refine ⟨by rw [classes, classes]; exact law.notBoth, fun normal => absurd normal notNormal, fun _ side active => ?_,
    fun _ inactivity => (inactive inactivity).1, fun _ inactivity side floor => ?_, fun req attempt verifies => ?_,
    fun req side goes => ?_⟩
  · have valid := holds side active
    rw [classes]
    cases side <;> exact valid
  · obtain ⟨notA, notB⟩ := (inactive inactivity).2 floor
    rw [classes]
    cases side <;> [exact notA; exact notB]
  · rw [selected.store, engine] at verifies; cases verifies
  · rw [State.advances, selected.store] at goes
    rcases goes with runs | waits
    · rw [engine] at runs; cases runs
    · rw [advance] at waits; cases waits

theorem State.endBoot_floorLaw {s : State} (boot : s.device = .boot) (tokens : TokenInv s) (law : FloorLaw s) :
    FloorLaw s.endBoot ∧ s.endBoot.tok.F = s.tok.F := by
  have running : s.device ≠ .inReset := by simp [boot]
  have begun : FloorLaw { s with device := .ready, restartTick := false } :=
    ⟨law.notBoth, law.normal, fun _ => law.active running, fun _ => law.low running, (fun h => nomatch h), law.verify,
      law.advances⟩
  rcases State.bootLowWaterTest_eq { s with device := .ready, restartTick := false } with same | ⟨-, -, same⟩
  · rw [State.endBoot, same]
    exact ⟨begun, rfl⟩
  · rw [State.endBoot, same]
    exact ⟨begun.requestAdvance tokens.law.commit (law.boot boot), (State.requestAdvance_frame _).floor⟩

theorem Outside.floorLaw {s t : State} (outside : Outside s t) (law : FloorLaw s) : FloorLaw t := by
  rw [outside.same]
  exact law.of_store rfl rfl rfl id rfl

/-! ### Every row -/

/-- What the committed floor rests on, and that it is no lower than it was. -/
structure FloorKept (least : Word) (s : State) : Prop where
  tokens : TokenInv s
  law : FloorLaw s
  above : least ≤ s.committedFloor

theorem step_floorKept {s t : State} (row : step s = .next t) {least : Word} (kept : FloorKept least s) :
    FloorKept least t := by
  refine step_keeps (P := FloorKept least) (fun move kept => ?move) (fun outside kept => ?outside)
    (fun begun kept => ?reset) (fun inReset selected kept => ?boot) (fun boot kept => ?bootEnd)
    (fun _ kept => ⟨kept.tokens.of_same rfl rfl rfl rfl, kept.law.of_store rfl rfl rfl id rfl, kept.above⟩) row kept
  case move =>
    exact ⟨move.tokenInv kept.tokens, (move.floorLaw kept.tokens kept.law).1,
      BitVec.le_trans kept.above (move.committedFloor_le kept.tokens kept.law)⟩
  case outside =>
    refine ⟨outside.tokenInv kept.tokens, outside.floorLaw kept.law, ?_⟩
    rw [outside.same]
    exact kept.above
  case reset =>
    refine ⟨begun.tokenInv, begun.floorLaw kept.tokens kept.law, BitVec.le_trans kept.above ?_⟩
    rw [State.committedFloor_of_inReset begun.cleared.device]
    exact (begun.rows_kept kept.tokens kept.law).2
  case boot =>
    refine ⟨selected.tokenInv inReset kept.tokens, selected.floorLaw inReset kept.tokens kept.law,
      BitVec.le_trans kept.above ?_⟩
    rw [State.committedFloor_of_inReset inReset, State.committedFloor_of_running (by simp [selected.device]),
      selected.tok]
    exact BitVec.le_refl _
  case bootEnd =>
    obtain ⟨law, F⟩ := State.endBoot_floorLaw boot kept.tokens kept.law
    refine ⟨State.endBoot_tokenInv boot kept.tokens, law, BitVec.le_trans kept.above ?_⟩
    rw [State.committedFloor_of_running (by simp [boot]),
      State.committedFloor_of_running (by simp [State.endBoot_device]),
      F]
    exact BitVec.le_refl _

/-- In BOOT the tokens start at the floor, which nothing moves there. -/
theorem step_boot_starts {s t : State} (row : step s = .next t) (tokens : TokenInv s)
    (start : s.device = .boot → s.tok.G = s.tok.F) : t.device = .boot → t.tok.G = t.tok.F := by
  refine (step_keeps (P := fun u => TokenInv u ∧ (u.device = .boot → u.tok.G = u.tok.F)) (fun move kept => ?move)
    (fun outside kept => ⟨outside.tokenInv kept.1, by rw [outside.same]; exact kept.2⟩)
    (fun begun _ => ⟨begun.tokenInv, fun boot => by rw [begun.cleared.device] at boot; cases boot⟩)
    (fun inReset selected kept => ⟨selected.tokenInv inReset kept.1, fun _ => by
      rw [selected.tok]; exact (selectTokens_selected _ _).1⟩)
    (fun boot kept => ⟨State.endBoot_tokenInv boot kept.1,
      fun still => by rw [State.endBoot_device] at still; cases still⟩)
    (fun _ kept => ⟨kept.1.of_same rfl rfl rfl rfl, kept.2⟩) row ⟨tokens, start⟩).2
  case move =>
    rename_i D E u v
    refine ⟨move.tokenInv kept.1, fun boot => ?_⟩
    rw [move.sameBoot.device] at boot
    have idle : ∀ req attempt phase, u.store.engine ≠ .busy req attempt phase := fun req attempt phase busy => by
      have ready := kept.1.law.ready_of_busy busy
      rw [boot] at ready
      cases ready
    have same : v.tok = u.tok := by
      cases move with
      | claim ready => rw [boot] at ready; cases ready
      | link move => exact move.only.tok
      | store move =>
        cases move
        case openImage => rfl
        case setImage => rfl
        case abort => rfl
        case commit ready _ _ _ => rw [boot] at ready; cases ready
        case erased req attempt engine => exact absurd engine (idle _ _ _)
        case written req attempt engine => exact absurd engine (idle _ _ _)
        case verified req attempt engine => exact absurd engine (idle _ _ _)
        case retried req engine => exact absurd engine (idle _ _ _)
        case failed req engine => exact absurd engine (idle _ _ _)
        case lowSet => rfl
        case lowClear => exact (State.kickEngine_kept _).2.1
    rw [same]
    exact kept.2 boot

theorem Work.G_le {D : Set RecIx} {s t : State} (work : Work s D t) : s.tok.G ≤ t.tok.G := by
  induction work with
  | refl => exact BitVec.le_refl _
  | weaken _ _ ih => exact ih
  | tail _ move ih =>
    refine BitVec.le_trans ih ?_
    cases move with
    | claim _ move =>
      rcases move.token with drawn | ⟨-, demand, tok⟩
      · rw [drawn.G]; exact BitVec.le_of_lt (TokenUnit.lt_succ_of_available drawn.2.2)
      · rw [tok]; exact BitVec.le_refl _
    | store move => rw [move.only.G]; exact BitVec.le_refl _
    | link move => rw [move.only.tok]; exact BitVec.le_refl _

/-- A row that leads to READY does not lower G. -/
theorem RowLeads.G_le {s t : State} (leads : RowLeads s t) (ready : t.device = .ready) : s.tok.G ≤ t.tok.G := by
  rcases leads with (work | boundary) | ticks
  · exact work.G_le
  · cases boundary.bounds with
    | outside change => rw [change.same]; exact BitVec.le_refl _
    | reset _ begun => rw [begun.cleared.device] at ready; cases ready
    | restart _ _ selected => rw [selected.device] at ready; cases ready
    | boot _ _ selected => rw [selected.device] at ready; cases ready
    | bootEnd => rw [s.endBoot_only.G]; exact BitVec.le_refl _
  · cases ticks with
    | idle => exact BitVec.le_refl _
    | tick _ _ work => exact work.G_le
    | @restart v _ _ _ => exact absurd ready v.endHold_device_ne_ready

/-- Settles O58: each change keeps the law and the committed floor; a reset leaves the row that is not in progress. -/
theorem committedFloorNeverFalls : Obligations.CommittedFloorNeverFalls := by
  unfold Obligations.CommittedFloorNeverFalls
  intro s t row
  refine ⟨fun tokens floor => ?_, fun ready => ?_⟩
  · have kept := step_floorKept row ⟨tokens, (floorInv_iff s).mp floor, BitVec.le_refl s.committedFloor⟩
    refine ⟨(floorInv_iff t).mpr kept.law, kept.above, fun other boot => ?_⟩
    rw [State.committedFloor_of_running (by simp [boot])]
    exact step_boot_starts row tokens (fun still => absurd still other) boot
  · unfold step at row
    split at row
    · cases row; exact BitVec.le_refl _
    · exact (leads_of_exec row).G_le ready

end Sys2Proof.Machine
end

section
/-! The configuration unit along every row: where the rows of a commit stand in each staging state, and the newest
stored image, which no commit reaches. -/

namespace Sys2Proof.Machine

/-! ### The commit row in the engine -/

/-- The row of a commit that the engine programs. -/
def State.commitRow (s : State) : Option RowRequest := s.store.engine.request.filter fun req => !req.isAdvance

theorem State.commitRow_eq_none_iff (s : State) :
    s.commitRow = none ↔ ∀ req ∈ s.store.engine.request, req.isAdvance = true := by
  simp [State.commitRow, Option.filter_eq_none_iff]

theorem State.commitRow_eq_some_iff {s : State} {req : RowRequest} :
    s.commitRow = some req ↔ s.store.engine.request = some req ∧ req.isAdvance = false := by
  simp [State.commitRow, Option.filter_eq_some_iff]

theorem State.commitRow_of_request {s t : State} (request : t.store.engine.request = s.store.engine.request) :
    t.commitRow = s.commitRow := by rw [State.commitRow, State.commitRow, request]

theorem State.commitRow_of_advance {s : State} {req : RowRequest} (runs : s.store.engine.request = some req)
    (advance : req.isAdvance = true) : s.commitRow = none := by
  rw [State.commitRow_eq_none_iff]
  intro r going
  cases runs.symm.trans going
  exact advance

theorem State.commitRow_of_idle {s : State} (idle : s.store.engine.request = none) : s.commitRow = none := by
  rw [State.commitRow, idle]; rfl

theorem noCommitRow_iff (s : State) : s.noCommitRow ↔ s.store.commitInput = none ∧ s.commitRow = none := by
  rw [State.noCommitRow, State.commitRow_eq_none_iff]

theorem firstRowRequest_isAdvance (t : CommitTarget) (img : Image) : (firstRowRequest t img).isAdvance = false := rfl

theorem secondRowRequest_isAdvance (t : CommitTarget) (img : Image) : (secondRowRequest t img).isAdvance = false := rfl

/-! ### The law -/

/-- An image that has passed the checks of R170. -/
structure Image.Committable (img : Image) : Prop where
  inRange : img.inRange = true
  unshared : img.sharedKey = none
  changeable : img.changeable = true

/-- Where the rows of a commit in PROGRAMMING stand: commitUnderWay by the commit row in the engine. -/
def State.underWay (s : State) (target : CommitTarget) (img : Image) : Prop :=
  s.store.commitInput = none ∧ s.commitRow = some (firstRowRequest target img) ∨
  s.store.row (.copyOne target.copy) = copyRowOne (BitVec.ofNat 16 target.seq) img ∧
    (s.store.commitInput = none ∧ s.commitRow = some (secondRowRequest target img) ∨
      s.store.commitInput = some (secondRowRequest target img) ∧ s.commitRow = none)

theorem commitUnderWay_iff (s : State) (target : CommitTarget) (img : Image) :
    s.commitUnderWay target img ↔ s.underWay target img := by
  have row : ∀ req : RowRequest, req.isAdvance = false → (s.store.engine.request = some req ↔ s.commitRow = some req) :=
    fun req isCommit => (State.commitRow_eq_some_iff.trans (and_iff_left isCommit)).symm
  rw [State.commitUnderWay, State.underWay, row _ (firstRowRequest_isAdvance _ _),
    row _ (secondRowRequest_isAdvance _ _),
    State.commitRow_eq_none_iff]

/-- What each staging state has (R165, R171, R173). -/
def State.stagingHolds (s : State) : Prop :=
  match s.cfg.staging with
  | .idle => s.cfg.owner = none ∧ s.cfg.image = none ∧ s.cfg.target = none ∧ s.store.commitInput = none ∧
      s.commitRow = none
  | .opened => s.cfg.owner.isSome = true ∧ s.cfg.target = none ∧ s.store.commitInput = none ∧ s.commitRow = none ∧
      ∃ img, s.cfg.image = some img ∧ img.staged
  | .commitPending => s.cfg.owner.isSome = true ∧ s.cfg.target = some s.cfg.nextTarget ∧
      ∃ img, s.cfg.image = some img ∧ img.Committable ∧
        s.store.commitInput = some (firstRowRequest s.cfg.nextTarget img) ∧ s.commitRow = none
  | .programming => s.cfg.owner.isSome = true ∧ s.cfg.target = some s.cfg.nextTarget ∧
      ∃ img, s.cfg.image = some img ∧ img.Committable ∧ s.cfg.nextTarget.seq ≤ 65535 ∧
        s.underWay s.cfg.nextTarget img

/-- A valid frozen copy stands in the rows. -/
def State.frozenRows (s : State) : Prop := ∃ side seq img, s.copyRowsClass side = .valid seq img ∧ img.frozen = true

/-- The copy that a commit does not target holds the newest stored image (R171). -/
def State.newestKept (s : State) : Prop := s.cfg.storedSeq ≠ 0#16 →
  s.cfg.record s.cfg.nextTarget.copy.other = some s.cfg.storedSeq ∧
    ∃ img, s.copyRowsClass s.cfg.nextTarget.copy.other = .valid s.cfg.storedSeq img

/-- ConfigInv by staging state. -/
structure ConfigLaw (s : State) : Prop where
  limits : s.cfg.effective.inRange = true
  notReady : s.device ≠ .ready → s.cfg.staging = .idle
  staging : s.stagingHolds
  records : ∀ side q, s.cfg.record side = some q → q ≤ s.cfg.storedSeq
  newest : s.newestKept
  frozen : s.cfg.storeFrozen = true → s.cfg.staging = .idle ∧ s.frozenRows

theorem configInv_iff (s : State) : ConfigInv s ↔ ConfigLaw s := by
  constructor
  · rintro ⟨limits, notReady, idle, opened, committed, pending, programming, records, newest, frozen⟩
    refine ⟨limits, notReady, ?_, records, newest, frozen⟩
    unfold State.stagingHolds
    cases state : s.cfg.staging with
    | idle =>
      obtain ⟨owner, image, target, rows⟩ := idle state
      exact ⟨owner, image, target, (noCommitRow_iff s).mp rows⟩
    | opened =>
      obtain ⟨owner, target, rows, image⟩ := opened state
      obtain ⟨input, row⟩ := (noCommitRow_iff s).mp rows
      exact ⟨owner, target, input, row, image⟩
    | commitPending =>
      obtain ⟨owner, target, img, image, inRange, unshared, changeable⟩ := committed (Or.inl state)
      obtain ⟨input, row⟩ := pending state img image
      exact ⟨owner, target, img, image, ⟨inRange, unshared, changeable⟩, input, s.commitRow_eq_none_iff.mpr row⟩
    | programming =>
      obtain ⟨owner, target, img, image, inRange, unshared, changeable⟩ := committed (Or.inr state)
      obtain ⟨bound, rows⟩ := programming state img image
      exact ⟨owner, target, img, image, ⟨inRange, unshared, changeable⟩, bound, (commitUnderWay_iff s _ img).mp rows⟩
  · rintro ⟨limits, notReady, staging, records, newest, frozen⟩
    unfold State.stagingHolds at staging
    refine ⟨limits, notReady, fun state => ?_, fun state => ?_, ?_, fun state img image => ?_,
      fun state img image => ?_, records, newest, frozen⟩
    · rw [state] at staging
      obtain ⟨owner, image, target, rows⟩ := staging
      exact ⟨owner, image, target, (noCommitRow_iff s).mpr rows⟩
    · rw [state] at staging
      obtain ⟨owner, target, input, row, image⟩ := staging
      exact ⟨owner, target, (noCommitRow_iff s).mpr ⟨input, row⟩, image⟩
    · rintro (state | state)
      · rw [state] at staging
        obtain ⟨owner, target, img, image, ⟨inRange, unshared, changeable⟩, -⟩ := staging
        exact ⟨owner, target, img, image, inRange, unshared, changeable⟩
      · rw [state] at staging
        obtain ⟨owner, target, img, image, ⟨inRange, unshared, changeable⟩, -⟩ := staging
        exact ⟨owner, target, img, image, inRange, unshared, changeable⟩
    · rw [state] at staging
      obtain ⟨-, -, img', image', -, input, row⟩ := staging
      cases image'.symm.trans image
      exact ⟨input, s.commitRow_eq_none_iff.mp row⟩
    · rw [state] at staging
      obtain ⟨-, -, img', image', -, bound, rows⟩ := staging
      cases image'.symm.trans image
      exact ⟨bound, (commitUnderWay_iff s _ img).mpr rows⟩

theorem State.stagingHolds_idle {s : State} (holds : s.stagingHolds) (idle : s.cfg.staging = .idle) :
    s.cfg.owner = none ∧ s.cfg.image = none ∧ s.cfg.target = none ∧ s.store.commitInput = none ∧
      s.commitRow = none := by
  rwa [State.stagingHolds, idle] at holds

theorem State.stagingHolds_opened {s : State} (holds : s.stagingHolds) (opened : s.cfg.staging = .opened) :
    s.cfg.owner.isSome = true ∧ s.cfg.target = none ∧ s.store.commitInput = none ∧ s.commitRow = none ∧
      ∃ img, s.cfg.image = some img ∧ img.staged := by
  rwa [State.stagingHolds, opened] at holds

/-- Staging that is idle leaves the rest of the law. -/
theorem ConfigLaw.of_idle {s : State} (limits : s.cfg.effective.inRange = true)
    (idle : s.cfg.staging = .idle ∧ s.cfg.owner = none ∧ s.cfg.image = none ∧ s.cfg.target = none)
    (rows : s.store.commitInput = none ∧ s.commitRow = none)
    (records : ∀ side q, s.cfg.record side = some q → q ≤ s.cfg.storedSeq) (newest : s.newestKept)
    (frozen : s.cfg.storeFrozen = true → s.frozenRows) : ConfigLaw s := by
  obtain ⟨state, owner, image, target⟩ := idle
  refine ⟨limits, fun _ => state, ?_, records, newest, fun set => ⟨state, frozen set⟩⟩
  rw [State.stagingHolds, state]
  exact ⟨owner, image, target, rows⟩

/-! ### The rows of the copies -/

/-- The rows of both copies as they were. -/
def SameCopies (s t : State) : Prop := ∀ side, t.store.row (.copyOne side) = s.store.row (.copyOne side) ∧
  t.store.row (.copyTwo side) = s.store.row (.copyTwo side)

theorem SameCopies.of_rows {s t : State} (rows : t.store.rows = s.store.rows) : SameCopies s t := fun side => by
  simp only [Store.row, rows, and_self]

theorem SameCopies.trans {s t u : State} (h : SameCopies s t) (k : SameCopies t u) : SameCopies s u := fun side =>
  ⟨(k side).1.trans (h side).1, (k side).2.trans (h side).2⟩

theorem SameCopies.class_eq {s t : State} (same : SameCopies s t) (side : Side) :
    t.copyRowsClass side = s.copyRowsClass side := by
  rw [State.copyRowsClass, State.copyRowsClass, (same side).1, (same side).2]

theorem SameCopies.frozenRows {s t : State} (same : SameCopies s t) (frozen : s.frozenRows) : t.frozenRows := by
  obtain ⟨side, seq, img, valid, set⟩ := frozen
  exact ⟨side, seq, img, by rw [same.class_eq]; exact valid, set⟩

/-- The row of an advance set. -/
theorem SameCopies.of_advance {s t : State} {req : RowRequest} (advance : req.isAdvance = true) {v : Row}
    (rows : t.store.rows = (s.store.setRow req.row v).rows) : SameCopies s t := by
  obtain ⟨x, row⟩ := RowRequest.row_of_isAdvance advance
  have kept : ∀ r, r ≠ req.row → t.store.row r = s.store.row r := by
    intro r other
    have content : t.store.row r = (s.store.setRow req.row v).row r := by rw [Store.row, Store.row, rows]
    rw [content, Store.row_setRow, if_neg other]
  exact fun side => ⟨kept _ (by simp [row]), kept _ (by simp [row])⟩

theorem ConfigLaw.of_same {s t : State} (law : ConfigLaw s) (cfg : t.cfg = s.cfg) (copies : SameCopies s t)
    (input : t.store.commitInput = s.store.commitInput) (row : t.commitRow = s.commitRow)
    (device : t.device ≠ .ready → s.device ≠ .ready) : ConfigLaw t := by
  refine ⟨by rw [cfg]; exact law.limits, fun notReady => by rw [cfg]; exact law.notReady (device notReady), ?_,
    by rw [cfg]; exact law.records, ?_, ?_⟩
  · have holds := law.staging
    unfold State.stagingHolds State.underWay at holds ⊢
    rw [cfg, input, row, (copies _).1]
    exact holds
  · have newest := law.newest
    unfold State.newestKept at newest ⊢
    rw [cfg, copies.class_eq]
    exact newest
  · rw [cfg]
    exact fun set => ⟨(law.frozen set).1, copies.frozenRows (law.frozen set).2⟩

/-! ### An engine that serves its inputs -/

/-- The commit under way whose first row waits or runs, or whose second does (R171 to R173, R158). -/
theorem ConfigLaw.kickEngine {s : State} (law : ConfigLaw s) (tokens : TokenLaw s) : ConfigLaw s.kickEngine := by
  by_cases idle : s.store.engine = .idle
  · have noRow : s.commitRow = none := State.commitRow_of_idle (by rw [idle]; rfl)
    cases low : s.supply.low with
    | true => rw [State.kickEngine_of_low idle low]; exact law
    | false =>
      cases advance : s.store.advanceInput with
      | some req =>
        rw [State.kickEngine_of_advance idle low advance]
        exact law.of_same rfl (.of_rows rfl) rfl
          ((State.commitRow_of_advance rfl (tokens.waiting req advance).1).trans noRow.symm) id
      | none =>
        cases commit : s.store.commitInput with
        | none => rw [State.kickEngine_of_noRequest idle low advance commit]; exact law
        | some req =>
          rw [State.kickEngine_of_commit idle low advance commit]
          have holds := law.staging
          unfold State.stagingHolds at holds
          cases state : s.cfg.staging with
          | idle => rw [state] at holds; rw [commit] at holds; cases holds.2.2.2.1
          | opened => rw [state] at holds; rw [commit] at holds; cases holds.2.2.1
          | commitPending =>
            rw [state] at holds
            obtain ⟨owner, target, img, image, good, waits, -⟩ := holds
            cases commit.symm.trans waits
            unfold State.startCommitRow
            dsimp only
            rw [if_pos (show (firstRowRequest s.cfg.nextTarget img).row.isFirstOfCommit = true from rfl)]
            split
            · exact ConfigLaw.of_idle law.limits ⟨rfl, rfl, rfl, rfl⟩ ⟨rfl, noRow⟩ law.records law.newest
                fun set => (law.frozen set).2
            · rename_i bound
              rw [s.cfg.sequenceSpent_iff] at bound
              refine ⟨law.limits, fun notReady => ?_, ⟨owner, target, img, image, good, ?_, Or.inl ⟨rfl, rfl⟩⟩,
                law.records,
                law.newest, fun set => ?_⟩
              · have ended := law.notReady notReady
                rw [state] at ended; cases ended
              · by_contra spent
                exact bound ⟨_, target, Nat.lt_of_not_le spent⟩
              · have ended := (law.frozen set).1
                rw [state] at ended; cases ended
          | programming =>
            rw [state] at holds
            obtain ⟨owner, target, img, image, good, bound, rows⟩ := holds
            rcases rows with ⟨empty, -⟩ | ⟨written, ⟨empty, -⟩ | ⟨waits, -⟩⟩
            · rw [empty] at commit; cases commit
            · rw [empty] at commit; cases commit
            · cases commit.symm.trans waits
              unfold State.startCommitRow
              rw [if_neg (by simp [secondRowRequest, ProgRow.isFirstOfCommit])]
              refine ⟨law.limits, law.notReady, ?_, law.records, law.newest, law.frozen⟩
              unfold State.stagingHolds
              rw [state]
              exact ⟨owner, target, img, image, good, bound, Or.inr ⟨written, Or.inl ⟨rfl, rfl⟩⟩⟩
  · rw [State.kickEngine_of_busy idle]; exact law

/-- An advance requested is no commit row. -/
theorem ConfigLaw.requestAdvance {s : State} (law : ConfigLaw s) (tokens : TokenLaw s) (free : s.noAdvance)
    (below : s.tok.F ≠ maxWord) (ready : s.device = .ready) : ConfigLaw s.requestAdvance := by
  obtain ⟨noInput, noRun⟩ := free
  refine ConfigLaw.kickEngine ?_ ⟨tokens.le, fun _ => below, fun notReady => absurd ready notReady, tokens.commit,
    fun req waits => ?_, fun req runs advances => ?_⟩
  · exact law.of_same rfl (.of_rows rfl) rfl rfl id
  · cases waits
    refine ⟨rfl, rfl, ?_, noRun⟩
    show s.tok.F ≤ rowWord (reserveRow (nextFloor s.tok.F)) 0
    rw [rowWord_reserveRow]
    exact le_nextFloor s.tok.F
  · rw [noRun req runs] at advances
    cases advances

theorem ConfigLaw.lowWaterTest {s : State} (law : ConfigLaw s) (tokens : TokenLaw s) (ready : s.device = .ready) :
    ConfigLaw s.lowWaterTest := by
  unfold State.lowWaterTest
  split
  · rename_i test
    obtain ⟨normal, low⟩ := test
    rw [TokenUnit.lowWater, Bool.and_eq_true] at low
    exact law.requestAdvance tokens (tokens.noAdvance (by rw [normal]; simp)) (by simpa using low.2) ready
  · exact law

theorem ConfigLaw.drawToken {s : State} (law : ConfigLaw s) (tokens : TokenInv s) (ready : s.device = .ready)
    (available : s.tok.available = true) : ConfigLaw s.drawToken := by
  have next := TokenUnit.succ_le_of_available available
  unfold State.drawToken
  dsimp only
  split
  · exact law.of_same rfl (.of_rows rfl) rfl rfl id
  · refine ConfigLaw.lowWaterTest (s := { s with tok := { s.tok with G := s.tok.G + 1#32 } })
      (law.of_same rfl (.of_rows rfl) rfl rfl id) ?_ ready
    have held := tokens.law
    exact ⟨next, held.advancing, held.notReady, held.commit, held.waiting, held.running⟩

/-! ### A commit row in the engine -/

/-- The commit that a row in the engine is of. -/
structure Programs (s : State) (req : RowRequest) (img : Image) : Prop where
  staging : s.cfg.staging = .programming
  owner : s.cfg.owner.isSome = true
  target : s.cfg.target = some s.cfg.nextTarget
  image : s.cfg.image = some img
  good : img.Committable
  bound : s.cfg.nextTarget.seq ≤ 65535
  input : s.store.commitInput = none
  row : req = firstRowRequest s.cfg.nextTarget img ∨
    s.store.row (.copyOne s.cfg.nextTarget.copy) = copyRowOne (BitVec.ofNat 16 s.cfg.nextTarget.seq) img ∧
      req = secondRowRequest s.cfg.nextTarget img

theorem ConfigLaw.programs {s : State} (law : ConfigLaw s) {req : RowRequest} (row : s.commitRow = some req) :
    ∃ img, Programs s req img := by
  have holds := law.staging
  unfold State.stagingHolds at holds
  cases state : s.cfg.staging with
  | idle => rw [state] at holds; rw [row] at holds; cases holds.2.2.2.2
  | opened => rw [state] at holds; rw [row] at holds; cases holds.2.2.2.1
  | commitPending =>
    rw [state] at holds
    obtain ⟨-, -, img, -, -, -, empty⟩ := holds
    rw [row] at empty; cases empty
  | programming =>
    rw [state] at holds
    obtain ⟨owner, target, img, image, good, bound, rows⟩ := holds
    rcases rows with ⟨input, first⟩ | ⟨written, ⟨input, second⟩ | ⟨-, empty⟩⟩
    · exact ⟨img, state, owner, target, image, good, bound, input, Or.inl (Option.some.inj (row.symm.trans first))⟩
    · exact ⟨img, state, owner, target, image, good, bound, input,
        Or.inr ⟨written, Option.some.inj (row.symm.trans second)⟩⟩
    · rw [row] at empty; cases empty

/-- The rows of a commit are those of its target's copy. -/
theorem Programs.row_eq {s : State} {req : RowRequest} {img : Image} (programs : Programs s req img) :
    req.row = .copyOne s.cfg.nextTarget.copy ∨ req.row = .copyTwo s.cfg.nextTarget.copy := by
  rcases programs.row with rfl | ⟨-, rfl⟩
  · exact Or.inl rfl
  · exact Or.inr rfl

/-- The frozen store programs no commit row. -/
theorem Programs.unfrozen {s : State} {req : RowRequest} {img : Image} (programs : Programs s req img)
    (law : ConfigLaw s) : s.cfg.storeFrozen = false := by
  rw [Bool.eq_false_iff]
  intro set
  have idle := (law.frozen set).1
  rw [programs.staging] at idle
  cases idle

section
variable {s t : State} {req : RowRequest} {attempt : Attempt} {phase : Phase} {v : Row}

/-- The other copy as it was. -/
theorem Programs.other_class {img : Image} (programs : Programs s req img)
    (rows : t.store.rows = (s.store.setRow req.row v).rows) :
    t.copyRowsClass s.cfg.nextTarget.copy.other = s.copyRowsClass s.cfg.nextTarget.copy.other := by
  have kept : ∀ r, r ≠ req.row → t.store.row r = s.store.row r := by
    intro r other
    have content : t.store.row r = (s.store.setRow req.row v).row r := by rw [Store.row, Store.row, rows]
    rw [content, Store.row_setRow, if_neg other]
  have apart := Side.other_ne s.cfg.nextTarget.copy
  rw [State.copyRowsClass, State.copyRowsClass]
  rcases programs.row_eq with row | row
  · rw [kept _ (by simp [row, apart]), kept _ (by simp [row])]
  · rw [kept _ (by simp [row]), kept _ (by simp [row, apart])]

/-- The row of the request in the engine is set to whatever content, and the engine goes on with it. -/
theorem ConfigLaw.setRow (law : ConfigLaw s) (runs : s.store.engine.request = some req)
    (rows : t.store.rows = (s.store.setRow req.row v).rows)
    (request : t.store.engine.request = s.store.engine.request) (cfg : t.cfg = s.cfg)
    (input : t.store.commitInput = s.store.commitInput) (device : t.device = s.device) : ConfigLaw t := by
  have row := State.commitRow_of_request request
  cases advance : req.isAdvance with
  | true => exact law.of_same cfg (.of_advance advance rows) input row (by rw [device]; exact id)
  | false =>
    obtain ⟨img, programs⟩ := law.programs (State.commitRow_eq_some_iff.mpr ⟨runs, advance⟩)
    refine ⟨by rw [cfg]; exact law.limits, by rw [cfg, device]; exact law.notReady, ?_, by rw [cfg]; exact law.records,
      ?_, fun set => ?_⟩
    · rw [State.stagingHolds, cfg, programs.staging]
      refine ⟨programs.owner, programs.target, img, programs.image, programs.good, programs.bound, ?_⟩
      have inEngine := State.commitRow_eq_some_iff.mpr ⟨runs, advance⟩
      rw [State.underWay, input, row, inEngine, programs.input]
      rcases programs.row with first | ⟨written, second⟩
      · exact Or.inl ⟨rfl, by rw [first]⟩
      · refine Or.inr ⟨?_, Or.inl ⟨rfl, by rw [second]⟩⟩
        have content : t.store.row (.copyOne s.cfg.nextTarget.copy) =
            (s.store.setRow req.row v).row (.copyOne s.cfg.nextTarget.copy) := by rw [Store.row, Store.row, rows]
        rw [content, Store.row_setRow, if_neg (by simp [second, secondRowRequest]), written]
    · have newest := law.newest
      unfold State.newestKept at newest ⊢
      rw [cfg, programs.other_class rows]
      exact newest
    · rw [cfg, programs.unfrozen law] at set
      cases set

end

/-! ### The copy that the next commit writes -/

theorem ConfigUnit.record_setRecord (c : ConfigUnit) (side x : Side) (q : Option Half) :
    (c.setRecord side q).record x = if x = side then q else c.record x := by
  cases side <;> cases x <;> rfl

/-- The older copy is written, or the one without a record (R171). -/
theorem ConfigUnit.nextTarget_copy_of_older {c : ConfigUnit} {side : Side} {q : Half}
    (newer : c.record side.other = some q) (older : ∀ x, c.record side = some x → x < q) :
    c.nextTarget.copy = side := by
  unfold ConfigUnit.nextTarget
  cases side with
  | a =>
    change c.recordB = some q at newer
    change ∀ x, c.recordA = some x → x < q at older
    cases first : c.recordA with
    | none => simp [newer, commitCopy]
    | some x => simp [newer, commitCopy, older x first]
  | b =>
    change c.recordA = some q at newer
    change ∀ x, c.recordB = some x → x < q at older
    cases second : c.recordB with
    | none => simp [newer, commitCopy]
    | some x =>
      have below := older x second
      simp [newer, commitCopy, BitVec.le_of_lt below]

theorem Side.other_other (side : Side) : side.other.other = side := by cases side <;> rfl

/-! ### The ends of a commit row -/

section
variable {s t : State} {req : RowRequest} {img : Image}

theorem toNat_ofNat_of_bound {n : Nat} (bound : n ≤ 65535) : (BitVec.ofNat 16 n).toNat = n := by
  rw [BitVec.toNat_ofNat]
  exact Nat.mod_eq_of_lt (by omega)

/-- The commit is done: the copy written holds the newest image (R174). -/
theorem Programs.completed (programs : Programs s req img) (law : ConfigLaw s)
    (cfg : t.cfg = s.cfg.completeCommit) (rows : t.store.rows = s.store.rows) (input : t.store.commitInput = none)
    (row : t.commitRow = none) (second : req = secondRowRequest s.cfg.nextTarget img)
    (verified : s.store.row req.row = req.bytes)
    (written : s.store.row (.copyOne s.cfg.nextTarget.copy) = copyRowOne (BitVec.ofNat 16 s.cfg.nextTarget.seq) img) :
    ConfigLaw t := by
  have number := toNat_ofNat_of_bound programs.bound
  have seq : s.cfg.nextTarget.seq = s.cfg.storedSeq.toNat + 1 := rfl
  have target := programs.target
  generalize next : s.cfg.nextTarget = T at number seq target written second
  have done : s.cfg.completeCommit = ({ s.cfg.setRecord T.copy (some (BitVec.ofNat 16 T.seq)) with
      storedSeq := BitVec.ofNat 16 T.seq
      storeFrozen := s.cfg.storeFrozen || s.cfg.image.any Image.frozen } : ConfigUnit).endCommit .done := by
    rw [ConfigUnit.completeCommit, target]
  have stored : t.cfg.storedSeq = BitVec.ofNat 16 T.seq := by rw [cfg, done]; rfl
  have records : ∀ x, t.cfg.record x = if x = T.copy then some (BitVec.ofNat 16 T.seq) else s.cfg.record x := by
    intro x
    rw [cfg, done, ← ConfigUnit.record_setRecord]
    cases x <;> rfl
  have above : ∀ x q, s.cfg.record x = some q → q < BitVec.ofNat 16 T.seq := by
    intro x q found
    have older := law.records x q found
    rw [BitVec.lt_def, number, seq]
    rw [BitVec.le_def] at older
    omega
  have valid : t.copyRowsClass T.copy = .valid (BitVec.ofNat 16 T.seq) img := by
    have two : s.store.row (.copyTwo T.copy) = copyRowTwo (BitVec.ofNat 16 T.seq) img := by
      rw [second] at verified; exact verified
    rw [(SameCopies.of_rows rows).class_eq, State.copyRowsClass, written, two]
    refine copyClass_written (fun zero => ?_) programs.good.inRange programs.good.unshared programs.good.changeable
    have number' := congrArg BitVec.toNat zero
    rw [number, seq, BitVec.toNat_ofNat] at number'
    omega
  have nextCopy : t.cfg.nextTarget.copy = T.copy.other := by
    refine ConfigUnit.nextTarget_copy_of_older (q := BitVec.ofNat 16 T.seq) ?_ fun q found => ?_
    · rw [Side.other_other, records, if_pos rfl]
    · rw [records, if_neg (Side.other_ne T.copy)] at found
      exact above _ q found
  refine ConfigLaw.of_idle ?_ ?_ ⟨input, row⟩ (fun x q found => ?_) (fun _ => ?_) fun set => ?_
  · rw [cfg, done]
    have effective : (s.cfg.setRecord T.copy (some (BitVec.ofNat 16 T.seq))).effective = s.cfg.effective := by
      cases T.copy <;> rfl
    show (s.cfg.setRecord T.copy (some (BitVec.ofNat 16 T.seq))).effective.inRange = true
    rw [effective]
    exact law.limits
  · rw [cfg, done]; exact ⟨rfl, rfl, rfl, rfl⟩
  · rw [stored]
    rw [records] at found
    split at found
    · cases found; exact BitVec.le_refl _
    · exact BitVec.le_of_lt (above x q found)
  · rw [nextCopy, Side.other_other, stored]
    exact ⟨by rw [records, if_pos rfl], img, valid⟩
  · have frozen : t.cfg.storeFrozen = (s.cfg.storeFrozen || s.cfg.image.any Image.frozen) := by rw [cfg, done]; rfl
    rw [frozen, programs.unfrozen law, programs.image, Bool.false_or] at set
    exact ⟨T.copy, _, img, valid, by simpa using set⟩

/-- The commit has failed: its copy has no record, and the other holds the newest image (R175). -/
theorem Programs.failed (programs : Programs s req img) (law : ConfigLaw s) {v : Row}
    (cfg : t.cfg = s.cfg.failCommit) (rows : t.store.rows = (s.store.setRow req.row v).rows)
    (input : t.store.commitInput = none) (row : t.commitRow = none) : ConfigLaw t := by
  have newest := law.newest
  have other := programs.other_class rows
  have target := programs.target
  unfold State.newestKept at newest
  generalize s.cfg.nextTarget = T at newest other target
  have done : s.cfg.failCommit = (s.cfg.setRecord T.copy none).endCommit .failed := by
    rw [ConfigUnit.failCommit, target]
  have stored : t.cfg.storedSeq = s.cfg.storedSeq := by rw [cfg, done]; cases T.copy <;> rfl
  have records : ∀ x, t.cfg.record x = if x = T.copy then none else s.cfg.record x := by
    intro x
    rw [cfg, done, ← ConfigUnit.record_setRecord]
    cases x <;> rfl
  have apart : ¬T.copy.other = T.copy := Side.other_ne T.copy
  refine ConfigLaw.of_idle ?_ ?_ ⟨input, row⟩ (fun x q found => ?_) (fun nonzero => ?_) fun set => ?_
  · have effective : t.cfg.effective = s.cfg.effective := by rw [cfg, done]; cases T.copy <;> rfl
    rw [effective]
    exact law.limits
  · rw [cfg, done]; exact ⟨rfl, rfl, rfl, rfl⟩
  · rw [stored]
    rw [records] at found
    split at found
    · cases found
    · exact law.records x q found
  · rw [stored] at nonzero ⊢
    obtain ⟨record, image, valid⟩ := newest nonzero
    have nextCopy : t.cfg.nextTarget.copy = T.copy := by
      refine ConfigUnit.nextTarget_copy_of_older (q := s.cfg.storedSeq) ?_ fun q found => ?_
      · rw [records, if_neg apart]; exact record
      · rw [records, if_pos rfl] at found; cases found
    rw [nextCopy, other]
    exact ⟨by rw [records, if_neg apart]; exact record, image, valid⟩
  · have frozen : t.cfg.storeFrozen = s.cfg.storeFrozen := by rw [cfg, done]; cases T.copy <;> rfl
    rw [frozen, programs.unfrozen law] at set
    cases set

end

/-! ### An open image -/

theorem Image.port_setPort (img : Image) (p q : Port) (set : PortSettings) :
    (img.setPort p set).port q = if q = p then set else img.port q := by
  have index : p.val = q.val ↔ q = p := by rw [eq_comm (a := q), Fin.ext_iff]
  simp [Image.port, Image.setPort, Vector.getElem_set, index]

theorem Image.chan_setChan (img : Image) (c d : Channel) (set : ChannelSettings) :
    (img.setChan c set).chan d = if d = c then set else img.chan d := by
  have index : c.val = d.val ↔ d = c := by rw [eq_comm (a := d), Fin.ext_iff]
  simp [Image.chan, Image.setChan, Vector.getElem_set, index]

theorem Image.staged_setPort {img : Image} (staged : img.staged) {p : Port} {set : PortSettings}
    (lease : set.maxLease ≤ 60000#16) (wait : set.maxWait ≤ 60000#16) : (img.setPort p set).staged := by
  refine ⟨fun q => ?_, fun ch => staged.2 ch⟩
  rw [Image.port_setPort]
  split
  · exact ⟨lease, wait⟩
  · exact staged.1 q

theorem Image.staged_setChan {img : Image} (staged : img.staged) {c : Channel} {set : ChannelSettings}
    (guard : set.guard ≤ 10000#16) : (img.setChan c set).staged := by
  refine ⟨fun q => staged.1 q, fun ch => ?_⟩
  rw [Image.chan_setChan]
  split
  · exact guard
  · exact staged.2 ch

theorem extract_le {value : Word} {most : Half} (bound : value.toNat ≤ most.toNat) :
    value.extractLsb' 0 16 ≤ most := by
  rw [BitVec.le_def, BitVec.extractLsb'_toNat, Nat.shiftRight_zero]
  exact Nat.le_trans (Nat.mod_le _ _) bound

/-- A field set within its range keeps the ranges (R168). -/
theorem Image.staged_setField {img img' : Image} (staged : img.staged) {item : Item} {index : Byte} {value : Word}
    (set : img.setField item index value = some img') : img'.staged := by
  have fits := staged.1
  have guards := staged.2
  unfold Image.setField at set
  split at set
  case h_1 =>
    split at set
    · cases set; exact ⟨fits, guards⟩
    · cases set
  case h_2 =>
    split at set
    · split at set
      · cases set; exact Image.staged_setPort staged (fits _).1 (fits _).2
      · cases set
    · cases set
  case h_3 =>
    split at set
    · split at set
      · cases set; exact Image.staged_setPort staged (fits _).1 (fits _).2
      · cases set
    · cases set
  case h_4 =>
    split at set
    · split at set
      · rename_i bound; cases set; exact Image.staged_setPort staged (extract_le bound) (fits _).2
      · cases set
    · cases set
  case h_5 =>
    split at set
    · split at set
      · rename_i bound; cases set; exact Image.staged_setPort staged (fits _).1 (extract_le bound)
      · cases set
    · cases set
  case h_6 =>
    split at set
    · cases set; exact Image.staged_setChan staged (guards _)
    · cases set
  case h_7 =>
    split at set
    · split at set
      · rename_i bound; cases set; exact Image.staged_setChan staged (extract_le bound)
      · cases set
    · cases set

theorem Image.staged_of_inRange {img : Image} (inRange : img.inRange = true) : img.staged := by
  obtain ⟨ports, chans⟩ := img.inRange_iff.mp inRange
  refine ⟨fun p => ?_, fun ch => ?_⟩
  · obtain ⟨-, lease, wait⟩ := ports p
    exact ⟨by rw [BitVec.le_def]; exact lease, by rw [BitVec.le_def]; exact wait⟩
  · rw [BitVec.le_def]; exact chans ch

/-- An open image that passes the checks of R170. -/
theorem Image.committable_of_badItem {img : Image} (staged : img.staged) (good : img.badItem = none) :
    img.Committable := by
  unfold Image.badItem at good
  split at good
  · cases good
  · rename_i unshared
    split at good
    · cases good
    · rename_i long
      split at good
      · rename_i changeable
        refine ⟨img.inRange_iff.mpr ⟨fun p => ?_, fun ch => ?_⟩, unshared, changeable⟩
        · obtain ⟨lease, wait⟩ := staged.1 p
          rw [BitVec.le_def] at lease wait
          refine ⟨?_, lease, wait⟩
          have least := List.find?_eq_none.mp long p (List.mem_finRange p)
          simpa [BitVec.lt_def] using least
        · have guard := staged.2 ch
          rw [BitVec.le_def] at guard
          exact guard
      · cases good

/-! ### Every change of a boot -/

theorem ConfigLaw.tearStaging {s t : State} (law : ConfigLaw s) {p : Port} (cfg : t.cfg = s.cfg.tearStaging p)
    (store : t.store = s.store) (device : t.device = s.device) : ConfigLaw t := by
  have row : t.commitRow = s.commitRow := State.commitRow_of_request (by rw [store])
  unfold ConfigUnit.tearStaging at cfg
  split at cfg
  · rename_i mine
    obtain ⟨-, target, input, noRow, -⟩ := State.stagingHolds_opened law.staging mine.1
    refine ConfigLaw.of_idle (by rw [cfg]; exact law.limits) (by rw [cfg]; exact ⟨rfl, rfl, rfl, target⟩)
      ⟨by rw [store]; exact input, row.trans noRow⟩ (by rw [cfg]; exact law.records) ?_ fun set => ?_
    · have newest := law.newest
      unfold State.newestKept at newest ⊢
      rw [cfg, (SameCopies.of_rows (s := s) (t := t) (by rw [store])).class_eq]
      exact newest
    · rw [cfg] at set
      exact (SameCopies.of_rows (by rw [store])).frozenRows (law.frozen set).2
  · exact law.of_same cfg (.of_rows (by rw [store])) (by rw [store]) row (by rw [device]; exact id)

theorem ClaimMove.configLaw {D E : Set RecIx} {s t : State} (move : ClaimMove D E s t) (ready : s.device = .ready)
    (tokens : TokenInv s) (law : ConfigLaw s) : ConfigLaw t := by
  have device := move.sameBoot.device
  rcases move.token with ⟨tok, store, available⟩ | ⟨store, demand, -⟩
  · have cfg : t.cfg = s.cfg := by
      rcases move.cfg with cfg | ⟨same, -⟩
      · exact cfg
      · have advanced : t.tok.G = s.tok.G + 1#32 := by rw [tok, s.drawToken_same.2]
        rw [same] at advanced
        exact absurd (TokenUnit.lt_succ_of_available available) (by rw [← advanced]; exact BitVec.lt_irrefl _)
    exact (law.drawToken tokens ready available).of_same (cfg.trans s.drawToken_frame.cfg.symm)
      (.of_rows (by rw [store])) (by rw [store]) (State.commitRow_of_request (by rw [store]))
      fun notReady => absurd (device.trans ready) notReady
  · rcases move.cfg with cfg | ⟨-, p, cfg⟩
    · exact law.of_same cfg (.of_rows (by rw [store])) (by rw [store]) (State.commitRow_of_request (by rw [store]))
        (by rw [device]; exact id)
    · exact law.tearStaging cfg store device

end Sys2Proof.Machine
end

section
/-! The configuration unit along every row, and the frozen store: the changes of the store controller, the resets
and start-up selection. -/

namespace Sys2Proof.Machine

/-! ### The changes of the store controller -/

section
variable {s t : State} {req : RowRequest} {attempt : Attempt} {phase : Phase}

/-- A row has succeeded: an advance, the first row of a commit, or its second (R58, R173, R174). -/
theorem ConfigLaw.rowSucceeded (law : ConfigLaw s) (tokens : TokenLaw s) (floor : FloorLaw s)
    (engine : s.store.engine = .busy req attempt .verify) : ConfigLaw (s.engineIdle.rowSucceeded req) := by
  have ready := tokens.ready_of_busy engine
  have runs : s.store.engine.request = some req := by rw [engine]; rfl
  have verified := floor.verify req attempt engine
  have isCommit : req.isAdvance = false → ∃ img, Programs s req img := fun isCommit =>
    law.programs (State.commitRow_eq_some_iff.mpr ⟨runs, isCommit⟩)
  unfold State.rowSucceeded
  split
  case h_1 side row =>
    have raised : ConfigLaw (s.engineIdle.raiseFloor side req.bytes) :=
      law.of_same rfl (.of_rows rfl) rfl (State.commitRow_of_advance runs (RowRequest.isAdvance_of_row row)).symm id
    exact raised.lowWaterTest (tokens.raiseFloor engine row) ready
  case h_2 side row =>
    obtain ⟨img, programs⟩ := isCommit (by rw [RowRequest.isAdvance, row])
    have first : req = firstRowRequest s.cfg.nextTarget img := by
      rcases programs.row with first | ⟨-, second⟩
      · exact first
      · rw [second] at row; cases row
    have target : s.engineIdle.cfg.target = some s.cfg.nextTarget := programs.target
    have image : s.engineIdle.cfg.image = some img := programs.image
    have written : s.store.row (.copyOne s.cfg.nextTarget.copy) =
        copyRowOne (BitVec.ofNat 16 s.cfg.nextTarget.seq) img := by rw [first] at verified; exact verified
    have handed : s.engineIdle.handSecondRow = { s.engineIdle with store := { s.engineIdle.store with
        commitInput := some (secondRowRequest s.cfg.nextTarget img) } } := by
      simp only [State.handSecondRow, target, image]
    rw [handed]
    refine ⟨law.limits, law.notReady, ?_, law.records, law.newest, law.frozen⟩
    rw [State.stagingHolds]
    dsimp only
    rw [show s.engineIdle.cfg = s.cfg from rfl, programs.staging]
    exact ⟨programs.owner, programs.target, img, programs.image, programs.good, programs.bound,
      Or.inr ⟨written, Or.inr ⟨rfl, rfl⟩⟩⟩
  case h_3 side row =>
    obtain ⟨img, programs⟩ := isCommit (by rw [RowRequest.isAdvance, row])
    rcases programs.row with first | ⟨written, second⟩
    · rw [first] at row; cases row
    · exact programs.completed law rfl rfl programs.input rfl second verified written

/-- A row has failed its second attempt: an advance, or either row of a commit (R59, R175). -/
theorem ConfigLaw.rowFailed (law : ConfigLaw s) (engine : s.store.engine = .busy req attempt phase) :
    ConfigLaw ((s.spoilRow req).engineIdle.rowFailed req) := by
  have runs : s.store.engine.request = some req := by rw [engine]; rfl
  have isCommit : req.isAdvance = false → ∃ img, Programs s req img := fun isCommit =>
    law.programs (State.commitRow_eq_some_iff.mpr ⟨runs, isCommit⟩)
  unfold State.rowFailed
  split
  case h_1 side row =>
    have advance := RowRequest.isAdvance_of_row row
    exact law.of_same rfl (.of_advance (v := req.row.failedRow s.free) advance rfl) rfl
      (State.commitRow_of_advance runs advance).symm id
  case h_2 side row =>
    obtain ⟨img, programs⟩ := isCommit (by rw [RowRequest.isAdvance, row])
    exact programs.failed law (v := req.row.failedRow s.free) rfl rfl programs.input rfl
  case h_3 side row =>
    obtain ⟨img, programs⟩ := isCommit (by rw [RowRequest.isAdvance, row])
    exact programs.failed law (v := req.row.failedRow s.free) rfl rfl programs.input rfl

/-- An image in hand is committed: its first row waits at the commit input (R171). -/
theorem ConfigLaw.acceptCommit (law : ConfigLaw s) (tokens : TokenLaw s) (ready : s.device = .ready)
    (opened : s.cfg.staging = .opened) {img : Image} (image : s.cfg.image = some img) (good : img.badItem = none) :
    ConfigLaw (s.acceptCommit img) := by
  obtain ⟨owner, -, -, row, img', image', staged⟩ := State.stagingHolds_opened law.staging opened
  cases image'.symm.trans image
  refine ConfigLaw.kickEngine ⟨law.limits, fun notReady => absurd ready notReady,
    ⟨owner, rfl, img, image, Image.committable_of_badItem staged good, rfl, row⟩, law.records, law.newest,
    fun set => ?_⟩ ⟨tokens.le, tokens.advancing, fun notReady => absurd ready notReady, fun req waits => ?_,
      tokens.waiting, tokens.running⟩
  · have ended := (law.frozen set).1
    rw [opened] at ended
    cases ended
  · cases waits
    rfl

end

theorem StoreMove.configLaw {s t : State} (move : StoreMove s t) (tokens : TokenInv s) (floor : FloorLaw s)
    (law : ConfigLaw s) : ConfigLaw t := by
  have held := tokens.law
  have runs : ∀ {req attempt phase}, s.store.engine = .busy req attempt phase →
      s.store.engine.request = some req := fun engine => by rw [engine]; rfl
  have unfrozen : s.cfg.staging = .opened → s.cfg.storeFrozen = true → False := fun opened set => by
    have ended := (law.frozen set).1
    rw [opened] at ended
    cases ended
  cases move
  case openImage p ready idle unfrozen =>
    obtain ⟨-, -, target, input, row⟩ := State.stagingHolds_idle law.staging idle
    refine ⟨law.limits, fun notReady => absurd ready notReady,
      ⟨rfl, target, input, row, _, rfl, Image.staged_of_inRange law.limits⟩, law.records, law.newest, fun set => ?_⟩
    rw [show s.cfg.storeFrozen = true from set] at unfrozen
    cases unfrozen
  case setImage img img' item index value opened image set =>
    obtain ⟨owner, target, input, row, was, image', staged⟩ := State.stagingHolds_opened law.staging opened
    cases image'.symm.trans image
    refine ⟨law.limits, law.notReady, ?_, law.records, law.newest, fun frozen => (unfrozen opened frozen).elim⟩
    rw [State.stagingHolds, show ConfigUnit.staging _ = _ from opened]
    exact ⟨owner, target, input, row, img', rfl, Image.staged_setField staged set⟩
  case abort opened =>
    obtain ⟨-, target, input, row, -⟩ := State.stagingHolds_opened law.staging opened
    exact ConfigLaw.of_idle law.limits ⟨rfl, rfl, rfl, target⟩ ⟨input, row⟩ law.records law.newest
      fun frozen => (unfrozen opened frozen).elim
  case commit img ready opened image good => exact law.acceptCommit held ready opened image good
  case erased req attempt engine =>
    exact law.setRow (runs engine) (v := blankRow) rfl (by rw [engine]; rfl) rfl rfl rfl
  case written req attempt engine =>
    exact law.setRow (runs engine) (v := req.bytes) rfl (by rw [engine]; rfl) rfl rfl rfl
  case verified req attempt engine =>
    exact (law.rowSucceeded held floor engine).kickEngine (held.rowSucceeded engine)
  case retried req engine =>
    exact law.setRow (runs engine) (v := req.row.failedRow s.free) rfl (by rw [engine]; rfl) rfl rfl rfl
  case failed req engine =>
    have spoilt : TokenLaw (s.spoilRow req) := held.of_same rfl rfl rfl rfl rfl rfl rfl
    exact (law.rowFailed engine).kickEngine (spoilt.rowFailed (attempt := .second) engine)
  case lowSet => exact law.of_same rfl (.of_rows rfl) rfl rfl id
  case lowClear =>
    refine ConfigLaw.kickEngine (law.of_same rfl (.of_rows rfl) rfl rfl id) ?_
    exact held.of_same rfl rfl rfl rfl rfl rfl rfl

theorem Move.configLaw {D E : Set RecIx} {s t : State} (move : Move D E s t) (tokens : TokenInv s) (floor : FloorLaw s)
    (law : ConfigLaw s) : ConfigLaw t := by
  cases move with
  | claim ready move => exact move.configLaw ready tokens law
  | store move => exact move.configLaw tokens floor law
  | link move =>
    have only := move.only
    exact law.of_same only.cfg (.of_rows (by rw [only.store])) (by rw [only.store])
      (State.commitRow_of_request (by rw [only.store])) (by rw [move.sameBoot.device]; exact id)

/-! ### The boundaries -/

theorem Outside.configLaw {s t : State} (outside : Outside s t) (law : ConfigLaw s) : ConfigLaw t := by
  rw [outside.same]
  exact law.of_same rfl (.of_rows rfl) rfl rfl id

theorem ResetBegun.configLaw {s t : State} (begun : ResetBegun s t) : ConfigLaw t := by
  obtain ⟨engine, -, commit⟩ := begun.cleared.engine
  have cfg := begun.cfg
  refine ConfigLaw.of_idle ?_ ?_ ⟨commit, State.commitRow_of_idle (by rw [engine]; rfl)⟩ (fun side q found => ?_)
    (fun nonzero => ?_) fun set => ?_
  · rw [cfg]; exact Image.factoryDefault_inRange
  · rw [cfg]; exact ⟨rfl, rfl, rfl, rfl⟩
  · rw [cfg] at found; cases side <;> cases found
  · rw [cfg] at nonzero; exact absurd rfl nonzero
  · rw [cfg] at set; cases set

/-- What start-up selection makes of two copies: the records by side, the newest of them stored. -/
theorem selectConfig_records (x y : CopyClass) : (selectConfig x y).recordA = x.seq? ∧
    (selectConfig x y).recordB = y.seq? ∧ (selectConfig x y).storeFrozen = (x.isFrozen || y.isFrozen) ∧
    (selectConfig x y).staging = .idle ∧ (selectConfig x y).owner = none ∧ (selectConfig x y).image = none ∧
    (selectConfig x y).target = none := by
  obtain ⟨⟨img, seq, defaulted⟩, chosen⟩ : ∃ c, selectImage x y = c := ⟨_, rfl⟩
  rw [selectConfig_of_image chosen]
  exact ⟨rfl, rfl, rfl, rfl, rfl, rfl, rfl⟩

theorem selectConfig_storedSeq (x y : CopyClass) : (selectConfig x y).storedSeq = (selectImage x y).2.1 := by
  obtain ⟨⟨img, seq, defaulted⟩, chosen⟩ : ∃ c, selectImage x y = c := ⟨_, rfl⟩
  rw [selectConfig_of_image chosen, chosen]

/-- The copy of a side. -/
def copyOf (x y : CopyClass) (side : Side) : CopyClass :=
  match side with
  | .a => x
  | .b => y

theorem selectConfig_record (x y : CopyClass) (side : Side) :
    (selectConfig x y).record side = (copyOf x y side).seq? := by
  obtain ⟨first, second, -⟩ := selectConfig_records x y
  cases side <;> [exact first; exact second]

/-- Every record selected is at most the sequence stored, which is that of a copy that the next commit spares. -/
theorem selectImage_newest (x y : CopyClass) :
    (∀ side q, (copyOf x y side).seq? = some q → q ≤ (selectImage x y).2.1) ∧
    ((selectImage x y).2.1 ≠ 0#16 → ∃ img,
      copyOf x y (commitCopy x.seq? y.seq?).other = .valid (selectImage x y).2.1 img) := by
  cases x with
  | valid qa ia =>
    cases y with
    | valid qb ib =>
      by_cases lower : qa < qb
      · have chosen : selectImage (.valid qa ia) (.valid qb ib) = (ib, qb, false) := if_pos lower
        have copy : commitCopy (some qa) (some qb) = .a := if_pos lower
        rw [chosen]
        refine ⟨fun side q found => ?_, fun _ => ⟨ib, ?_⟩⟩
        · cases side
          case a => cases found; exact BitVec.le_of_lt lower
          case b => cases found; exact BitVec.le_refl _
        · rw [show CopyClass.seq? _ = some qa from rfl, show CopyClass.seq? _ = some qb from rfl, copy]; rfl
      · have chosen : selectImage (.valid qa ia) (.valid qb ib) = (ia, qa, false) := if_neg lower
        have copy : commitCopy (some qa) (some qb) = .b := if_neg lower
        rw [chosen]
        refine ⟨fun side q found => ?_, fun _ => ⟨ia, ?_⟩⟩
        · cases side
          case a => cases found; exact BitVec.le_refl _
          case b => cases found; exact BitVec.not_lt.mp lower
        · rw [show CopyClass.seq? _ = some qa from rfl, show CopyClass.seq? _ = some qb from rfl, copy]; rfl
    | blank => exact ⟨(fun side q found => by cases side <;> cases found; exact BitVec.le_refl _), fun _ => ⟨ia, rfl⟩⟩
    | corrupt => exact ⟨(fun side q found => by cases side <;> cases found; exact BitVec.le_refl _), fun _ => ⟨ia, rfl⟩⟩
  | blank =>
    cases y with
    | valid qb ib =>
      exact ⟨(fun side q found => by cases side <;> cases found; exact BitVec.le_refl _), fun _ => ⟨ib, rfl⟩⟩
    | blank => exact ⟨(fun side q found => by cases side <;> cases found), fun nonzero => absurd rfl nonzero⟩
    | corrupt => exact ⟨(fun side q found => by cases side <;> cases found), fun nonzero => absurd rfl nonzero⟩
  | corrupt =>
    cases y with
    | valid qb ib =>
      exact ⟨(fun side q found => by cases side <;> cases found; exact BitVec.le_refl _), fun _ => ⟨ib, rfl⟩⟩
    | blank => exact ⟨(fun side q found => by cases side <;> cases found), fun nonzero => absurd rfl nonzero⟩
    | corrupt => exact ⟨(fun side q found => by cases side <;> cases found), fun nonzero => absurd rfl nonzero⟩

theorem CopyClass.isFrozen_iff (c : CopyClass) :
    c.isFrozen = true ↔ ∃ seq img, c = .valid seq img ∧ img.frozen = true := by
  cases c with
  | valid seq img => exact ⟨fun set => ⟨seq, img, rfl, set⟩, by rintro ⟨_, _, same, set⟩; cases same; exact set⟩
  | blank => exact iff_of_false (fun h => nomatch h) (by rintro ⟨_, _, h, -⟩; cases h)
  | corrupt => exact iff_of_false (fun h => nomatch h) (by rintro ⟨_, _, h, -⟩; cases h)

theorem State.copyOf_rows (s : State) (side : Side) :
    copyOf (s.copyRowsClass .a) (s.copyRowsClass .b) side = s.copyRowsClass side := by cases side <;> rfl

/-- The store-frozen flag selected, by the rows (R163). -/
theorem State.selectConfig_storeFrozen_iff (s : State) :
    (selectConfig (s.copyRowsClass .a) (s.copyRowsClass .b)).storeFrozen = true ↔ s.frozenRows := by
  rw [(selectConfig_records _ _).2.2.1, Bool.or_eq_true, CopyClass.isFrozen_iff, CopyClass.isFrozen_iff]
  constructor
  · rintro (⟨seq, img, valid, set⟩ | ⟨seq, img, valid, set⟩)
    · exact ⟨.a, seq, img, valid, set⟩
    · exact ⟨.b, seq, img, valid, set⟩
  · rintro ⟨side, seq, img, valid, set⟩
    cases side with
    | a => exact Or.inl ⟨seq, img, valid, set⟩
    | b => exact Or.inr ⟨seq, img, valid, set⟩

theorem BootSelected.configLaw {s t : State} (selected : BootSelected s t) (inReset : s.device = .inReset)
    (tokens : TokenInv s) : ConfigLaw t := by
  obtain ⟨engine, -, commit⟩ := tokens.law.notReady (by simp [inReset])
  have copies : SameCopies s t := .of_rows (by rw [selected.store])
  obtain ⟨recordA, recordB, -, staging⟩ := selectConfig_records (s.copyRowsClass .a) (s.copyRowsClass .b)
  obtain ⟨below, newest⟩ := selectImage_newest (s.copyRowsClass .a) (s.copyRowsClass .b)
  have record := selectConfig_record (s.copyRowsClass .a) (s.copyRowsClass .b)
  have stored := selectConfig_storedSeq (s.copyRowsClass .a) (s.copyRowsClass .b)
  have frozen := s.selectConfig_storeFrozen_iff
  have copy : t.cfg.nextTarget.copy = commitCopy (s.copyRowsClass .a).seq? (s.copyRowsClass .b).seq? := by
    rw [selected.cfg, ConfigUnit.nextTarget, recordA, recordB]
  refine ConfigLaw.of_idle selected.effective_good.1 (by rw [selected.cfg]; exact staging)
    ⟨by rw [selected.store]; exact commit, State.commitRow_of_idle (by rw [selected.store, engine]; rfl)⟩
    (fun side q found => ?_) (fun nonzero => ?_) fun set => ?_
  · rw [selected.cfg, record] at found
    rw [selected.cfg, stored]
    exact below side q found
  · rw [selected.cfg, stored] at nonzero
    obtain ⟨img, valid⟩ := newest nonzero
    rw [copy, copies.class_eq, selected.cfg, record, stored, valid]
    exact ⟨rfl, img, (s.copyOf_rows _).symm.trans valid⟩
  · rw [selected.cfg] at set
    exact copies.frozenRows (frozen.mp set)

theorem State.endBoot_configLaw {s : State} (boot : s.device = .boot) (tokens : TokenInv s) (law : ConfigLaw s) :
    ConfigLaw s.endBoot := by
  have notReady : s.device ≠ .ready := by simp [boot]
  have begun : ConfigLaw { s with device := .ready, restartTick := false } :=
    law.of_same rfl (.of_rows rfl) rfl rfl fun running => absurd rfl running
  rcases State.bootLowWaterTest_eq { s with device := .ready, restartTick := false } with same | ⟨-, below, same⟩
  · rw [State.endBoot, same]; exact begun
  · rw [State.endBoot, same]
    exact begun.requestAdvance tokens.law.endBoot (tokens.law.noAdvance_of_notReady notReady) below rfl

/-! ### The frozen store -/

theorem storeIsFrozen_iff (s : State) :
    s.storeIsFrozen ↔ s.cfg.storeFrozen = true ∨ s.device = .inReset ∧ s.frozenRows := Iff.rfl

theorem ConfigLaw.frozen_idle {s : State} (law : ConfigLaw s) (frozen : s.storeIsFrozen) :
    s.cfg.staging = .idle ∧ s.frozenRows := by
  rcases frozen with set | ⟨inReset, rows⟩
  · exact law.frozen set
  · exact ⟨law.notReady (by simp [inReset]), rows⟩

theorem ConfigLaw.frozen_noCommit {s : State} (law : ConfigLaw s) (frozen : s.storeIsFrozen) :
    s.store.commitInput = none ∧ s.commitRow = none :=
  (State.stagingHolds_idle law.staging (law.frozen_idle frozen).1).2.2.2

theorem State.kickEngine_cfg_of_noCommit {s : State} (empty : s.store.commitInput = none) :
    s.kickEngine.cfg = s.cfg := by
  unfold State.kickEngine
  rw [empty]
  split
  · rfl
  · split
    · rfl
    · split <;> rfl

theorem RowRequest.isAdvance_of_noCommitRow {s : State} {req : RowRequest} (empty : s.commitRow = none)
    {attempt : Attempt} {phase : Phase} (engine : s.store.engine = .busy req attempt phase) : req.isAdvance = true :=
  s.commitRow_eq_none_iff.mp empty req (by rw [engine]; rfl)

/-- Without a commit on its way a change of the store controller leaves the copies and the frozen flag. -/
theorem StoreMove.copies_of_noCommit {s t : State} (move : StoreMove s t) (idle : s.cfg.staging = .idle)
    (input : s.store.commitInput = none) (row : s.commitRow = none) :
    SameCopies s t ∧ t.cfg.storeFrozen = s.cfg.storeFrozen := by
  have advances : ∀ {req attempt phase}, s.store.engine = .busy req attempt phase → req.isAdvance = true :=
    fun engine => RowRequest.isAdvance_of_noCommitRow row engine
  have notOpened : s.cfg.staging ≠ .opened := by simp [idle]
  cases move
  case openImage => exact ⟨.of_rows rfl, rfl⟩
  case setImage opened _ _ => exact absurd opened notOpened
  case abort opened => exact absurd opened notOpened
  case commit _ opened _ _ => exact absurd opened notOpened
  case erased req attempt engine => exact ⟨.of_advance (v := blankRow) (advances engine) rfl, rfl⟩
  case written req attempt engine => exact ⟨.of_advance (v := req.bytes) (advances engine) rfl, rfl⟩
  case retried req engine => exact ⟨.of_advance (v := req.row.failedRow s.free) (advances engine) rfl, rfl⟩
  case verified req attempt engine =>
    obtain ⟨side, isReserve⟩ := RowRequest.row_of_isAdvance (advances engine)
    have frame := State.lowWaterTest_frame (s.engineIdle.raiseFloor side req.bytes)
    have succeeded : s.engineIdle.rowSucceeded req = (s.engineIdle.raiseFloor side req.bytes).lowWaterTest := by
      rw [State.rowSucceeded, isReserve]
      rfl
    rw [succeeded]
    refine ⟨.of_rows (((State.kickEngine_kept _).1).trans frame.rows), ?_⟩
    rw [State.kickEngine_cfg_of_noCommit (frame.commitInput.trans input), frame.cfg]
    rfl
  case failed req engine =>
    obtain ⟨side, isReserve⟩ := RowRequest.row_of_isAdvance (advances engine)
    have ended : (s.spoilRow req).engineIdle.rowFailed req = (s.spoilRow req).engineIdle.failAdvance := by
      rw [State.rowFailed, isReserve]
    rw [ended]
    refine ⟨SameCopies.of_advance (v := req.row.failedRow s.free) (advances engine) (State.kickEngine_kept _).1, ?_⟩
    rw [State.kickEngine_cfg_of_noCommit (s := (s.spoilRow req).engineIdle.failAdvance) input]
    rfl
  case lowSet => exact ⟨.of_rows rfl, rfl⟩
  case lowClear => exact ⟨.of_rows (State.kickEngine_kept _).1, by
    rw [State.kickEngine_cfg_of_noCommit (s := { s with supply := { s.supply with low := false } }) input]⟩

theorem Move.copies_of_frozen {D E : Set RecIx} {s t : State} (move : Move D E s t) (law : ConfigLaw s)
    (frozen : s.storeIsFrozen) : SameCopies s t ∧ t.storeIsFrozen := by
  obtain ⟨input, row⟩ := law.frozen_noCommit frozen
  have kept : SameCopies s t ∧ t.cfg.storeFrozen = s.cfg.storeFrozen := by
    cases move with
    | claim _ move =>
      refine ⟨?_, ?_⟩
      · rcases move.token with ⟨-, store, -⟩ | ⟨store, -⟩
        · exact .of_rows (by rw [store, s.drawToken_frame.rows])
        · exact .of_rows (by rw [store])
      · rcases move.cfg with cfg | ⟨-, p, cfg⟩
        · rw [cfg]
        · rw [cfg, ConfigUnit.tearStaging]; split <;> rfl
    | store move => exact move.copies_of_noCommit (law.frozen_idle frozen).1 input row
    | link move => exact ⟨.of_rows (by rw [move.only.store]), by rw [move.only.cfg]⟩
  obtain ⟨copies, flag⟩ := kept
  refine ⟨copies, ?_⟩
  rcases frozen with set | ⟨inReset, rows⟩
  · exact Or.inl (flag.trans set)
  · exact Or.inr ⟨move.sameBoot.device.trans inReset, copies.frozenRows rows⟩

/-- A reset leaves the copies of a frozen store. -/
theorem ResetBegun.copies_of_noCommit {s t : State} (begun : ResetBegun s t) (row : s.commitRow = none) :
    SameCopies s t := by
  have kept : ∀ r : ProgRow, (∀ side, r ≠ .reserve side) → t.store.row r = s.store.row r := by
    intro r isCopy
    rw [Store.row, Store.row]
    refine begun.cleared.rows r.index fun req attempt phase engine same => ?_
    obtain ⟨side, isReserve⟩ := RowRequest.row_of_isAdvance (RowRequest.isAdvance_of_noCommitRow row engine)
    exact isCopy side (ProgRow.index_injective (same.symm.trans (by rw [isReserve])))
  exact fun side => ⟨kept _ (fun _ h => nomatch h), kept _ (fun _ h => nomatch h)⟩

/-! ### Every row -/

/-- What the configuration unit rests on. -/
structure ConfigKept (s : State) : Prop where
  tokens : TokenInv s
  floor : FloorLaw s
  config : ConfigLaw s

theorem Move.configKept {D E : Set RecIx} {s t : State} (move : Move D E s t) (kept : ConfigKept s) : ConfigKept t :=
  ⟨move.tokenInv kept.tokens, (move.floorLaw kept.tokens kept.floor).1,
    move.configLaw kept.tokens kept.floor kept.config⟩

theorem Outside.configKept {s t : State} (outside : Outside s t) (kept : ConfigKept s) : ConfigKept t :=
  ⟨outside.tokenInv kept.tokens, outside.floorLaw kept.floor, outside.configLaw kept.config⟩

theorem ResetBegun.configKept {s t : State} (begun : ResetBegun s t) (kept : ConfigKept s) : ConfigKept t :=
  ⟨begun.tokenInv, begun.floorLaw kept.tokens kept.floor, begun.configLaw⟩

theorem BootSelected.configKept {s t : State} (selected : BootSelected s t) (inReset : s.device = .inReset)
    (kept : ConfigKept s) : ConfigKept t :=
  ⟨selected.tokenInv inReset kept.tokens, selected.floorLaw inReset kept.tokens kept.floor,
    selected.configLaw inReset kept.tokens⟩

theorem State.endBoot_configKept {s : State} (boot : s.device = .boot) (kept : ConfigKept s) : ConfigKept s.endBoot :=
  ⟨State.endBoot_tokenInv boot kept.tokens, (State.endBoot_floorLaw boot kept.tokens kept.floor).1,
    State.endBoot_configLaw boot kept.tokens kept.config⟩

theorem State.tickOn_configKept {s : State} (kept : ConfigKept s) : ConfigKept s.tickOn :=
  ⟨kept.tokens.of_same rfl rfl rfl rfl, kept.floor.of_store rfl rfl rfl id rfl,
    kept.config.of_same rfl (.of_rows rfl) rfl rfl id⟩

theorem step_configKept {s t : State} (row : step s = .next t) (kept : ConfigKept s) : ConfigKept t :=
  step_keeps (P := ConfigKept) (fun move => move.configKept) (fun outside => outside.configKept)
    (fun begun => begun.configKept) (fun inReset selected => selected.configKept inReset)
    (fun boot => State.endBoot_configKept boot) (fun _ => State.tickOn_configKept) row kept

/-- A frozen store with the copies of a state. -/
structure FrozenKept (start s : State) : Prop where
  kept : ConfigKept s
  frozen : s.storeIsFrozen
  copies : SameCopies start s

theorem step_frozenKept {start s t : State} (row : step s = .next t) (kept : FrozenKept start s) :
    FrozenKept start t := by
  refine step_keeps (P := FrozenKept start) (fun move before => ?move) (fun outside before => ?outside)
    (fun begun before => ?reset) (fun inReset selected before => ?boot) (fun boot before => ?bootEnd)
    (fun _ before => ⟨State.tickOn_configKept before.kept, before.frozen, before.copies⟩) row kept
  case move =>
    obtain ⟨copies, frozen⟩ := move.copies_of_frozen before.kept.config before.frozen
    exact ⟨move.configKept before.kept, frozen, before.copies.trans copies⟩
  case outside =>
    refine ⟨outside.configKept before.kept, ?_, ?_⟩
    · rw [outside.same]; exact before.frozen
    · rw [outside.same]; exact before.copies
  case reset =>
    have copies := begun.copies_of_noCommit (before.kept.config.frozen_noCommit before.frozen).2
    exact ⟨begun.configKept before.kept, Or.inr ⟨begun.cleared.device,
      copies.frozenRows (before.kept.config.frozen_idle before.frozen).2⟩, before.copies.trans copies⟩
  case boot =>
    refine ⟨selected.configKept inReset before.kept, Or.inl ?_,
      before.copies.trans (.of_rows (by rw [selected.store]))⟩
    rw [selected.cfg, State.selectConfig_storeFrozen_iff]
    exact (before.kept.config.frozen_idle before.frozen).2
  case bootEnd =>
    rename_i s'
    have frame : s'.endBoot.cfg = s'.cfg ∧ s'.endBoot.store.rows = s'.store.rows := by
      rcases State.bootLowWaterTest_eq { s' with device := .ready, restartTick := false } with same | ⟨-, -, same⟩
      · rw [State.endBoot, same]; exact ⟨rfl, rfl⟩
      · rw [State.endBoot, same]
        exact ⟨(State.requestAdvance_frame _).cfg, (State.requestAdvance_frame _).rows⟩
    refine ⟨State.endBoot_configKept boot before.kept, Or.inl ?_, before.copies.trans (.of_rows frame.2)⟩
    rw [frame.1]
    rcases before.frozen with set | ⟨inReset, -⟩
    · exact set
    · rw [boot] at inReset; cases inReset

/-- Settles O59: each staging state with its rows by every change; a frozen store has no commit on its way. -/
theorem configurationInvariantKept : Obligations.ConfigurationInvariantKept := by
  unfold Obligations.ConfigurationInvariantKept
  intro s t row tokens floor config
  have kept : ConfigKept s := ⟨tokens, (floorInv_iff s).mp floor, (configInv_iff s).mp config⟩
  have after := step_configKept row kept
  refine ⟨(configInv_iff t).mpr after.config, fun frozen => ?_⟩
  have still := step_frozenKept row ⟨kept, frozen, fun _ => ⟨rfl, rfl⟩⟩
  exact ⟨still.frozen, (noCommitRow_iff s).mpr (kept.config.frozen_noCommit frozen),
    (noCommitRow_iff t).mpr (after.config.frozen_noCommit still.frozen), still.copies⟩

end Sys2Proof.Machine
end

section
/-! The due events of a tick: what they are, that no change makes one due, that taking one removes it; and the
deadlines along every row. -/

namespace Sys2Proof.Machine

/-! ### What is due -/

theorem State.mem_table_iff {s : State} {r : Record} : some r ∈ s.table.toList ↔ ∃ i, s.record i = some r := by
  rw [Vector.mem_toList_iff, Vector.mem_iff_getElem]
  constructor
  · rintro ⟨i, lt, stands⟩; exact ⟨⟨i, lt⟩, stands⟩
  · rintro ⟨i, stands⟩; exact ⟨i.val, i.isLt, stands⟩

theorem Record.mem_due_iff {r : Record} {now : Word} {e : DueEvent} : e ∈ r.due now ↔
    (∃ p h, r.holder p = some h ∧ h.deadline = now ∧ e = .lease p r.key) ∨
      ∃ w ∈ r.waiters, w.state = .queued ∧ w.deadline = now ∧ e = .wait w.port r.key := by
  unfold Record.due
  rw [List.mem_append, List.mem_filterMap, List.mem_filterMap]
  refine or_congr (exists_congr fun p => ?_) (exists_congr fun w => ?_)
  · rw [and_iff_right (List.mem_finRange p), Option.bind_eq_some_iff]
    refine exists_congr fun h => and_congr_right fun _ => ?_
    rw [Option.ite_none_right_eq_some, Option.some_inj, eq_comm (a := e)]
  · refine and_congr_right fun _ => ?_
    rw [Option.ite_none_right_eq_some, Option.some_inj, eq_comm (a := e), and_assoc]

/-- What is due at now (R35, R190). -/
theorem State.mem_dueEvents_iff {s : State} {e : DueEvent} : e ∈ s.dueEvents ↔
    (∃ i r p h, s.record i = some r ∧ r.holder p = some h ∧ h.deadline = s.now ∧ e = .lease p r.key) ∨
    (∃ i r, s.record i = some r ∧
      ∃ w ∈ r.waiters, w.state = .queued ∧ w.deadline = s.now ∧ e = .wait w.port r.key) ∨
    (∃ ch, (s.chan ch).state = .guard s.now ∧ e = .guard ch) ∨ s.hold = .due ∧ e = .holdEnd := by
  have records : (e ∈ s.table.toList.flatMap fun r => r.elim [] fun r => r.due s.now) ↔
      ∃ i r, s.record i = some r ∧ e ∈ r.due s.now := by
    rw [List.mem_flatMap]
    constructor
    · rintro ⟨o, mem, due⟩
      cases o with
      | none => cases due
      | some r =>
        obtain ⟨i, stands⟩ := State.mem_table_iff.mp mem
        exact ⟨i, r, stands, due⟩
    · rintro ⟨i, r, stands, due⟩
      exact ⟨some r, State.mem_table_iff.mpr ⟨i, stands⟩, due⟩
  have channels : (e ∈ (List.finRange 4).filterMap fun ch =>
      if (s.chan ch).state = .guard s.now then some (.guard ch) else none) ↔
      ∃ ch, (s.chan ch).state = .guard s.now ∧ e = .guard ch := by
    rw [List.mem_filterMap]
    refine exists_congr fun ch => ?_
    rw [and_iff_right (List.mem_finRange ch), Option.ite_none_right_eq_some, Option.some_inj, eq_comm (a := e)]
  have hold : (e ∈ if s.hold = .due then [DueEvent.holdEnd] else []) ↔ s.hold = .due ∧ e = .holdEnd := by
    split
    · rename_i due; rw [List.mem_singleton, and_iff_right due]
    · rename_i other; exact iff_of_false (fun h => nomatch h) fun h => other h.1
  unfold State.dueEvents
  rw [List.mem_append, List.mem_append, records, channels, hold, or_assoc]
  simp only [Record.mem_due_iff, and_or_left, exists_or]
  constructor
  · rintro ((⟨i, r, stands, p, h, held⟩ | entries) | rest)
    · exact Or.inl ⟨i, r, p, h, stands, held⟩
    · exact Or.inr (Or.inl entries)
    · exact Or.inr (Or.inr rest)
  · rintro (⟨i, r, p, h, stands, held⟩ | entries | rest)
    · exact Or.inl (Or.inl ⟨i, r, stands, p, h, held⟩)
    · exact Or.inl (Or.inr entries)
    · exact Or.inr rest

/-! ### No event is due twice -/

theorem Record.due_nodup {r : Record} (single : r.onePerPort) (now : Word) : (r.due now).Nodup := by
  unfold Record.due
  rw [List.nodup_append]
  refine ⟨?_, ?_, ?_⟩
  · refine List.Nodup.filterMap ?_ (List.nodup_finRange 4)
    intro p q e first second
    rw [Option.mem_def, Option.bind_eq_some_iff] at first second
    obtain ⟨h, -, first⟩ := first
    obtain ⟨g, -, second⟩ := second
    rw [Option.ite_none_right_eq_some] at first second
    obtain ⟨-, rfl⟩ : _ ∧ DueEvent.lease p r.key = e := ⟨first.1, Option.some.inj first.2⟩
    exact (DueEvent.lease.inj (Option.some.inj second.2)).1.symm
  · refine List.Nodup.of_map (fun e => match e with | .wait p _ => some p | _ => none) ?_
    have ports : ∀ l : List Waiter, (l.map fun w => w.port).Nodup →
        ((l.filterMap fun w => if w.state = .queued ∧ w.deadline = now then some (DueEvent.wait w.port r.key)
          else none).map fun e => match e with | .wait p _ => some p | _ => none).Nodup := by
      intro l nodup
      induction l with
      | nil => exact List.nodup_nil
      | cons w rest ih =>
        rw [List.map_cons, List.nodup_cons] at nodup
        rw [List.filterMap_cons]
        split
        · exact ih nodup.2
        · rename_i e due
          rw [Option.ite_none_right_eq_some] at due
          obtain rfl := Option.some.inj due.2
          rw [List.map_cons, List.nodup_cons]
          refine ⟨fun mem => ?_, ih nodup.2⟩
          obtain ⟨e', mem, same⟩ := List.mem_map.mp mem
          obtain ⟨v, behind, due'⟩ := List.mem_filterMap.mp mem
          rw [Option.ite_none_right_eq_some] at due'
          obtain rfl := Option.some.inj due'.2
          exact nodup.1 (List.mem_map.mpr ⟨v, behind, Option.some.inj same⟩)
    exact ports r.waiters single.1
  · intro e first e' second same
    subst same
    obtain ⟨p, -, first⟩ := List.mem_filterMap.mp first
    obtain ⟨h, -, first⟩ := Option.bind_eq_some_iff.mp first
    obtain ⟨w, -, second⟩ := List.mem_filterMap.mp second
    rw [Option.ite_none_right_eq_some] at first second
    obtain rfl := Option.some.inj first.2
    cases second.2

/-- The key of the claim whose deadline an event is. -/
def DueEvent.key (e : DueEvent) : Option Word :=
  match e with
  | .lease _ key => some key
  | .wait _ key => some key
  | .guard _ => none
  | .holdEnd => none

theorem Record.key_of_mem_due {r : Record} {now : Word} {e : DueEvent} (mem : e ∈ r.due now) : e.key = some r.key := by
  rcases Record.mem_due_iff.mp mem with ⟨p, h, -, -, rfl⟩ | ⟨w, -, -, -, rfl⟩
  · rfl
  · rfl

theorem ClaimsInv.dueEvents_nodup {s : State} (inv : ClaimsInv s) : s.dueEvents.Nodup := by
  have records : (s.table.toList.flatMap fun r => r.elim [] fun r => r.due s.now).Nodup := by
    rw [List.nodup_flatMap]
    refine ⟨fun o mem => ?_, ?_⟩
    · cases o with
      | none => exact List.nodup_nil
      | some r =>
        obtain ⟨i, stands⟩ := State.mem_table_iff.mp mem
        exact Record.due_nodup (inv.shape i r stands).onePerPort s.now
    · rw [List.pairwise_iff_getElem]
      intro i j lti ltj before e first second
      rw [Vector.length_toList] at lti ltj
      rw [Vector.getElem_toList] at first second
      cases stands : s.table[i] with
      | none => rw [stands] at first; cases first
      | some r =>
        cases stands' : s.table[j] with
        | none => rw [stands'] at second; cases second
        | some r' =>
          rw [stands] at first
          rw [stands'] at second
          have same := (Record.key_of_mem_due first).symm.trans (Record.key_of_mem_due second)
          have index := inv.keys ⟨i, lti⟩ ⟨j, ltj⟩ r r' stands stands' (Option.some.inj same)
          exact absurd (congrArg Fin.val index) (ne_of_lt before)
  have channels : ((List.finRange 4).filterMap fun ch =>
      if (s.chan ch).state = .guard s.now then some (DueEvent.guard ch) else none).Nodup := by
    refine List.Nodup.filterMap (fun c d e first second => ?_) (List.nodup_finRange 4)
    rw [Option.mem_def, Option.ite_none_right_eq_some] at first second
    obtain rfl := Option.some.inj first.2
    exact (DueEvent.guard.inj (Option.some.inj second.2)).symm
  have keyed : ∀ e ∈ s.table.toList.flatMap fun r => r.elim [] fun r => r.due s.now, e.key ≠ none := by
    intro e mem
    obtain ⟨o, -, due⟩ := List.mem_flatMap.mp mem
    cases o with
    | none => cases due
    | some r => rw [Record.key_of_mem_due due]; simp
  unfold State.dueEvents
  rw [List.nodup_append, List.nodup_append]
  refine ⟨⟨records, channels, fun e first e' second same => ?_⟩, ?_, fun e first e' second same => ?_⟩
  · subst same
    obtain ⟨ch, -, due⟩ := List.mem_filterMap.mp second
    rw [Option.ite_none_right_eq_some] at due
    obtain rfl := Option.some.inj due.2
    exact keyed _ first rfl
  · split
    · exact List.nodup_singleton _
    · exact List.nodup_nil
  · subst same
    split at second
    · obtain rfl := List.mem_singleton.mp second
      rcases List.mem_append.mp first with first | first
      · exact keyed _ first rfl
      · obtain ⟨ch, -, due⟩ := List.mem_filterMap.mp first
        rw [Option.ite_none_right_eq_some] at due
        cases due.2
    · cases second

/-! ### No change makes an event due -/

/-- The lease stored in every waiter entry is one that its port may ask for (R36). -/
def State.leasesStored (s : State) : Prop :=
  ∀ i r, s.record i = some r → ∀ w ∈ r.waiters, s.leaseFits w.port w.lease

theorem State.leaseFits_of_effective {s t : State} (effective : t.cfg.effective = s.cfg.effective) (p : Port)
    (lease : Half) : t.leaseFits p lease ↔ s.leaseFits p lease := by
  unfold State.leaseFits State.settings
  rw [effective]

theorem ClaimMove.leasesStored {D E : Set RecIx} {s t : State} (move : ClaimMove D E s t) (stored : s.leasesStored) :
    t.leasesStored := by
  intro i r stands w mem
  rw [State.leaseFits_of_effective move.sameBoot.effective]
  rcases (move.claimsFrom i r stands).2 w mem with ⟨r', stands', -, w', mem', port, lease, -⟩ | ⟨fits, -⟩
  · rw [← port, ← lease]; exact stored i r' stands' w' mem'
  · exact fits

theorem State.leasesStored_of_records {s t : State} (stored : s.leasesStored) (record : ∀ i, t.record i = s.record i)
    (effective : t.cfg.effective = s.cfg.effective) : t.leasesStored := by
  intro i r stands w mem
  rw [record] at stands
  rw [State.leaseFits_of_effective effective]
  exact stored i r stands w mem

theorem Move.leasesStored {D E : Set RecIx} {s t : State} (move : Move D E s t) (stored : s.leasesStored) :
    t.leasesStored := by
  have effective := move.sameBoot.effective
  cases move with
  | claim _ move => exact move.leasesStored stored
  | store move => exact State.leasesStored_of_records stored (State.record_of_table move.only.table) effective
  | link move => exact State.leasesStored_of_records stored (State.record_of_table move.only.table) effective

theorem add_ne_self_of_nonzero {now : Word} {ticks : Half} (nonzero : ticks ≠ 0#16) :
    now + ticks.setWidth 32 ≠ now := by
  intro same
  have zero : ticks.setWidth 32 = 0#32 := by bv_omega
  apply nonzero
  bv_omega

theorem ne_zero_of_ten_le {lease : Half} (least : 10#16 ≤ lease) : lease ≠ 0#16 := by
  rintro rfl
  exact absurd least (by decide)

/-- The lease a grant forms a deadline from is not 0. -/
theorem State.grantable_fits {s : State} (stored : s.leasesStored) {p : Port} {lease : Half}
    (grantable : s.grantable p lease) : s.leaseFits p lease := by
  rcases grantable with fits | ⟨i, r, stands, w, mem, rfl, rfl⟩
  · exact fits
  · exact stored i r stands w mem

/-- No change of the claim engine makes a lease, a wait or a guard due (R33). -/
theorem ClaimMove.dues_sub {D E : Set RecIx} {s t : State} (move : ClaimMove D E s t) (stored : s.leasesStored) :
    t.dueEvents ⊆ s.dueEvents := by
  have now := move.sameBoot.now
  intro e mem
  rw [State.mem_dueEvents_iff] at mem ⊢
  rcases mem with ⟨i, r, p, h, stands, held, due, rfl⟩ | ⟨i, r, stands, w, mem, queued, due, rfl⟩ | ⟨ch, due, rfl⟩ |
      ⟨due, rfl⟩
  · rw [now] at due
    rcases (move.claimsFrom i r stands).1 p h held with
        ⟨r', h', stands', key, held', -, same | ⟨lease, fits, formed⟩⟩ | ⟨-, -, lease, grantable, formed⟩
    · exact Or.inl ⟨i, r', p, h', stands', held', same.trans due, by rw [key]⟩
    · exact absurd (formed.symm.trans due) (add_ne_self_of_nonzero (ne_zero_of_ten_le fits.1))
    · have fits := State.grantable_fits stored grantable
      exact absurd (formed.symm.trans due) (add_ne_self_of_nonzero (ne_zero_of_ten_le fits.1))
  · rw [now] at due
    rcases (move.claimsFrom i r stands).2 w mem with ⟨r', stands', key, w', mem', port, -, same⟩ |
        ⟨-, wait, nonzero, -, formed⟩
    · obtain ⟨queued', deadline⟩ := same queued
      exact Or.inr (Or.inl ⟨i, r', stands', w', mem', queued', deadline.trans due, by rw [port, key]⟩)
    · exact absurd (formed.symm.trans due) (add_ne_self_of_nonzero nonzero)
  · rw [now] at due
    rcases (move.channel ch).guard_from due with same | ⟨nonzero, formed⟩
    · exact Or.inr (Or.inr (Or.inl ⟨ch, same, rfl⟩))
    · exact absurd formed.symm (add_ne_self_of_nonzero nonzero)
  · rw [move.hold] at due
    exact Or.inr (Or.inr (Or.inr ⟨due, rfl⟩))

/-- Where the claims, the guards and now are the same, so is what is due, but for the RESTART hold. -/
theorem State.dues_sub_of_same {s t : State} (record : ∀ i, t.record i = s.record i) (now : t.now = s.now)
    (guards : ∀ ch deadline, (t.chan ch).state = .guard deadline → (s.chan ch).state = .guard deadline)
    (hold : t.hold = .due → s.hold = .due) : t.dueEvents ⊆ s.dueEvents := by
  intro e mem
  rw [State.mem_dueEvents_iff] at mem ⊢
  simp only [record, now] at mem
  rcases mem with leases | waits | ⟨ch, due, rfl⟩ | ⟨due, rfl⟩
  · exact Or.inl leases
  · exact Or.inr (Or.inl waits)
  · exact Or.inr (Or.inr (Or.inl ⟨ch, guards ch _ due, rfl⟩))
  · exact Or.inr (Or.inr (Or.inr ⟨hold due, rfl⟩))

theorem LinkMove.guard_from {s t : State} (move : LinkMove s t) {ch : Channel} {deadline : Word}
    (guard : (t.chan ch).state = .guard deadline) : (s.chan ch).state = .guard deadline := by
  cases move with
  | ginh d level running =>
    rw [State.chan_setChan] at guard
    split at guard
    · rename_i here; rw [here]; exact (GateChannel.takeGinh_guard level).mp guard
    · exact guard
  | pin => exact guard
  | reply => exact guard
  | own => exact guard
  | hold => exact guard
  | ginhPin => exact guard

theorem Move.dues_sub {D E : Set RecIx} {s t : State} (move : Move D E s t) (stored : s.leasesStored) :
    t.dueEvents ⊆ s.dueEvents := by
  have now := move.sameBoot.now
  cases move with
  | claim _ move => exact move.dues_sub stored
  | store move =>
    have only := move.only
    exact State.dues_sub_of_same (State.record_of_table only.table) now
      (fun ch deadline guard => by rw [State.chan, only.chans] at guard; exact guard) (by rw [only.hold]; exact id)
  | link move =>
    refine State.dues_sub_of_same (State.record_of_table move.only.table) now (fun _ _ => move.guard_from) ?_
    cases move with
    | hold => exact fun due => nomatch due
    | pin => exact id
    | reply => exact id
    | own => exact id
    | ginhPin => exact id
    | ginh => exact id

/-- What the due events rest on. -/
structure DuesOk (s : State) : Prop where
  claims : ClaimsInv s
  stored : s.leasesStored

theorem Move.duesOk {D E : Set RecIx} {s t : State} (move : Move D E s t) (ok : DuesOk s) : DuesOk t :=
  ⟨move.claimsInv ok.claims, move.leasesStored ok.stored⟩

theorem Work.duesOk {D : Set RecIx} {s t : State} (work : Work s D t) (ok : DuesOk s) : DuesOk t :=
  work.keeps (fun move => move.duesOk) ok

theorem Work.dues_sub {D : Set RecIx} {s t : State} (work : Work s D t) (ok : DuesOk s) :
    t.dueEvents ⊆ s.dueEvents := by
  induction work with
  | refl => exact fun _ mem => mem
  | tail work move ih => exact fun _ mem => ih (move.dues_sub (work.duesOk ok).stored mem)
  | weaken _ _ ih => exact ih

/-! ### An event taken is due no more -/

section
variable {s : State} (ok : DuesOk s) (ready : s.device = .ready)
include ok ready

theorem DuesOk.lease_taken {p : Port} {key : Word} (due : .lease p key ∈ s.dueEvents) :
    .lease p key ∉ (s.expireLease p key).dueEvents := by
  rcases State.mem_dueEvents_iff.mp due with ⟨i, r, q, h, stands, held, deadline, same⟩ |
      ⟨i, r, stands, w, mem, queued, deadline, same⟩ | ⟨ch, guard, same⟩ | ⟨hold, same⟩
  case inr.inl => cases same
  case inr.inr.inl => cases same
  case inr.inr.inr => cases same
  cases same
  have shape := ok.claims.shape i r stands
  have found : s.holdingOf p r.key = some (i, r, h) := State.holdingOf_eq_some_iff.mpr
    ⟨State.lookRecord_eq_some_iff.mpr ⟨stands, rfl, fun j before r' stands' same =>
      absurd (ok.claims.keys j i r' r stands' stands same) (ne_of_lt before)⟩, held⟩
  have taken : s.expireLease p r.key = (s.endHolding i r p h (some .lapsed)).grantPass i := by
    simp [State.expireLease, found, State.reached_iff, deadline, State.lapse]
  have ended : Work s (insert i ∅) (s.endHolding i r p h (some .lapsed)) :=
    Work.refl.claim ready (.endHolding _ stands held)
  have passed : Work (s.endHolding i r p h (some .lapsed)) _ ((s.endHolding i r p h (some .lapsed)).grantPass i) :=
    Work.refl.grantPass (ended.sameBoot.device.trans ready) i
  rw [taken]
  intro still
  have before := passed.dues_sub (ended.duesOk ok) still
  rcases State.mem_dueEvents_iff.mp before with ⟨j, r', q, g, stands', held', -, same⟩ |
      ⟨j, r', stands', w, mem, queued, -, same⟩ | ⟨ch, guard, same⟩ | ⟨hold, same⟩
  case inr.inl => cases same
  case inr.inr.inl => cases same
  case inr.inr.inr => cases same
  obtain ⟨rfl, key⟩ := DueEvent.lease.inj same
  rw [State.endHolding_record] at stands'
  split at stands'
  · cases stands'
    rw [Record.holder_setHolder, if_pos rfl] at held'
    cases held'
  · rename_i other
    exact other (ok.claims.keys j i r' r stands' stands key.symm)

theorem DuesOk.wait_taken {p : Port} {key : Word} (due : .wait p key ∈ s.dueEvents) :
    .wait p key ∉ (s.expireWait p key).dueEvents := by
  rcases State.mem_dueEvents_iff.mp due with ⟨i, r, q, h, stands, held, deadline, same⟩ |
      ⟨i, r, stands, w, mem, queued, deadline, same⟩ | ⟨ch, guard, same⟩ | ⟨hold, same⟩
  case inl => cases same
  case inr.inr.inl => cases same
  case inr.inr.inr => cases same
  cases same
  have shape := ok.claims.shape i r stands
  have waiting : r.waiter w.port = some w := by
    cases found : r.waiter w.port with
    | none => exact absurd rfl ((r.waiter_none_iff w.port).mp found w mem)
    | some v =>
      rw [List.inj_on_of_nodup_map shape.onePerPort.1 (Record.waiter_mem found) mem (Record.waiter_port found)]
  have found : s.waitingOf w.port r.key = some (i, r, w) := State.waitingOf_eq_some_iff.mpr
    ⟨State.lookRecord_eq_some_iff.mpr ⟨stands, rfl, fun j before r' stands' same =>
      absurd (ok.claims.keys j i r' r stands' stands same) (ne_of_lt before)⟩, waiting⟩
  have taken : s.expireWait w.port r.key = s.departWaiter i r w (some .waitExpired) := by
    simp [State.expireWait, found, State.reached_iff, deadline, queued]
  have dropped : Work s (insert i ∅) (s.dropWaiter i r w (some .waitExpired)) :=
    Work.refl.claim ready (.dropWaiter _ stands waiting)
  have passed : Work (s.dropWaiter i r w (some .waitExpired)) _ (s.departWaiter i r w (some .waitExpired)) :=
    Work.refl.passOrRetire (dropped.sameBoot.device.trans ready) i _
  rw [taken]
  intro still
  have before := passed.dues_sub (dropped.duesOk ok) still
  rcases State.mem_dueEvents_iff.mp before with ⟨j, r', q, g, stands', held', -, same⟩ |
      ⟨j, r', stands', v, mem', queued', -, same⟩ | ⟨ch, guard, same⟩ | ⟨hold, same⟩
  case inl => cases same
  case inr.inr.inl => cases same
  case inr.inr.inr => cases same
  obtain ⟨port, key⟩ := DueEvent.wait.inj same
  rw [State.dropWaiter_record] at stands'
  split at stands'
  · cases stands'
    have left := List.of_mem_filter mem'
    simp [port] at left
  · rename_i other
    exact other (ok.claims.keys j i r' r stands' stands key.symm)

theorem DuesOk.guard_taken {ch : Channel} (due : .guard ch ∈ s.dueEvents) :
    .guard ch ∉ (s.expireGuard ch).dueEvents := by
  rcases State.mem_dueEvents_iff.mp due with ⟨i, r, q, h, stands, held, deadline, same⟩ |
      ⟨i, r, stands, w, mem, queued, deadline, same⟩ | ⟨d, guard, same⟩ | ⟨hold, same⟩
  case inl => cases same
  case inr.inl => cases same
  case inr.inr.inr => cases same
  cases same
  have taken : s.expireGuard ch = (s.setChan ch { s.chan ch with state := .idle }).reportIdle ch := by
    simp [State.expireGuard, guard, State.reached_iff]
  have opened : Work s ∅ (s.setChan ch { s.chan ch with state := .idle }) := .of_claim ready (.openGate guard)
  have passed : Work (s.setChan ch { s.chan ch with state := .idle }) ∅
      ((s.setChan ch { s.chan ch with state := .idle }).reportIdle ch) :=
    Work.reportIdle (s := s.setChan ch { s.chan ch with state := .idle }) ready Work.refl ch
  rw [taken]
  intro still
  have before := passed.dues_sub (opened.duesOk ok) still
  rcases State.mem_dueEvents_iff.mp before with ⟨j, r', q, g, stands', held', -, same⟩ |
      ⟨j, r', stands', v, mem', queued', -, same⟩ | ⟨d, guard', same⟩ | ⟨hold, same⟩
  case inl => cases same
  case inr.inl => cases same
  case inr.inr.inr => cases same
  cases same
  rw [State.chan_setChan, if_pos rfl] at guard'
  cases guard'

/-- An event that is due is taken by work, which leaves it due no more; or the RESTART hold ends. -/
theorem DuesOk.takeDue {e : DueEvent} (due : e ∈ s.dueEvents) :
    (s.takeDue e).device ≠ .ready ∨ Work s ∅ (s.takeDue e) ∧ e ∉ (s.takeDue e).dueEvents := by
  cases e with
  | lease p key => exact Or.inr ⟨Work.refl.expireLease ready p key, ok.lease_taken ready due⟩
  | wait p key => exact Or.inr ⟨Work.refl.expireWait ready p key, ok.wait_taken ready due⟩
  | guard ch => exact Or.inr ⟨Work.refl.expireGuard ready ch, ok.guard_taken ready due⟩
  | holdEnd => exact Or.inl s.endHold_device_ne_ready

/-- What is due behind an event that is taken is less. -/
theorem DuesOk.length_lt {e : DueEvent} (due : e ∈ s.dueEvents) (still : (s.takeDue e).device = .ready) :
    DuesOk (s.takeDue e) ∧ (s.takeDue e).dueEvents.length < s.dueEvents.length := by
  obtain ended | ⟨work, taken⟩ := ok.takeDue ready due
  · exact absurd still ended
  · have after := work.duesOk ok
    have without : (s.takeDue e).dueEvents ⊆ s.dueEvents.erase e := fun x mem =>
      (List.mem_erase_of_ne (by rintro rfl; exact taken mem)).mpr (work.dues_sub ok mem)
    have shorter := (after.claims.dueEvents_nodup.subperm without).length_le
    rw [List.length_erase_of_mem due] at shorter
    have positive := List.length_pos_of_mem due
    exact ⟨after, by omega⟩

end

/-! ### All that is due is taken -/

/-- A free value drawn leaves what is due. -/
theorem DuesOk.drawFree {s : State} (ok : DuesOk s) (free : Nat) : DuesOk { s with free := free } :=
  ⟨ok.claims.of_same (.of_ports rfl rfl rfl), ok.stored⟩

/-- The event that is taken next, of several. -/
def State.nextDue (s : State) (e : DueEvent) (rest : List DueEvent) : DueEvent :=
  (e :: rest).getD (Config.dueChoice s.free % (rest.length + 1)) e

theorem State.nextDue_mem (s : State) (e : DueEvent) (rest : List DueEvent) : s.nextDue e rest ∈ e :: rest :=
  getD_mem_cons _ _ _

theorem State.takeAllDue_of_several {s : State} {n : Nat} (ready : s.device = .ready) {e f : DueEvent}
    {rest : List DueEvent} (dues : s.dueEvents = e :: f :: rest) : State.takeAllDue (n + 1) s =
      State.takeAllDue n ({ s with free := s.free + 1 }.takeDue (s.nextDue e (f :: rest))) := by
  rw [State.takeAllDue, if_pos ready, dues]
  rfl

theorem State.takeAllDue_of_one {s : State} {n : Nat} (ready : s.device = .ready) {e : DueEvent}
    (dues : s.dueEvents = [e]) : State.takeAllDue (n + 1) s = s.takeDue e := by
  rw [State.takeAllDue, if_pos ready, dues]

theorem State.takeAllDue_of_none {s : State} (n : Nat) (dues : s.dueEvents = []) : State.takeAllDue n s = s := by
  cases n with
  | zero => rfl
  | succ n =>
    rw [State.takeAllDue]
    split
    · rw [dues]
    · rfl

/-- Behind one of several that is taken, less is due. -/
theorem DuesOk.nextDue {s : State} (ok : DuesOk s) (ready : s.device = .ready) {e f : DueEvent}
    {rest : List DueEvent} (dues : s.dueEvents = e :: f :: rest)
    (still : ({ s with free := s.free + 1 }.takeDue (s.nextDue e (f :: rest))).device = .ready) :
    DuesOk ({ s with free := s.free + 1 }.takeDue (s.nextDue e (f :: rest))) ∧
      ({ s with free := s.free + 1 }.takeDue (s.nextDue e (f :: rest))).dueEvents.length < s.dueEvents.length := by
  have due : s.nextDue e (f :: rest) ∈ State.dueEvents { s with free := s.free + 1 } := by
    show _ ∈ s.dueEvents
    rw [dues]
    exact s.nextDue_mem e (f :: rest)
  exact (ok.drawFree (s.free + 1)).length_lt ready due still

/-- The count of what is due is fuel enough. -/
theorem DuesOk.takeAllDue_fuel {s : State} (ok : DuesOk s) {n m : Nat} (first : s.dueEvents.length ≤ n)
    (second : s.dueEvents.length ≤ m) : State.takeAllDue n s = State.takeAllDue m s := by
  by_cases ready : s.device = .ready
  · induction n generalizing s m with
    | zero =>
      have noDues := List.eq_nil_of_length_eq_zero (Nat.le_zero.mp first)
      rw [State.takeAllDue_of_none _ noDues, State.takeAllDue_of_none _ noDues]
    | succ n ih =>
      cases dues : s.dueEvents with
      | nil => rw [State.takeAllDue_of_none _ dues, State.takeAllDue_of_none _ dues]
      | cons e rest =>
        obtain ⟨m, rfl⟩ : ∃ k, m = k + 1 := Nat.exists_eq_succ_of_ne_zero fun zero => by
          rw [zero, dues] at second; cases second
        cases rest with
        | nil => rw [State.takeAllDue_of_one ready dues, State.takeAllDue_of_one ready dues]
        | cons f rest =>
          rw [State.takeAllDue_of_several ready dues, State.takeAllDue_of_several ready dues]
          by_cases still : ({ s with free := s.free + 1 }.takeDue (s.nextDue e (f :: rest))).device = .ready
          · obtain ⟨after, fewer⟩ := ok.nextDue ready dues still
            exact ih after (by omega) (by omega) still
          · rw [State.takeAllDue_of_notReady still, State.takeAllDue_of_notReady still]
  · rw [State.takeAllDue_of_notReady ready, State.takeAllDue_of_notReady ready]

/-- A part that stays in READY has taken all that was due. -/
theorem DuesOk.takeAllDue_clears {s : State} (ok : DuesOk s) {n : Nat} (enough : s.dueEvents.length ≤ n)
    (still : (State.takeAllDue n s).device = .ready) : (State.takeAllDue n s).dueEvents = [] := by
  by_cases ready : s.device = .ready
  · induction n generalizing s with
    | zero => exact List.eq_nil_of_length_eq_zero (Nat.le_zero.mp enough)
    | succ n ih =>
      cases dues : s.dueEvents with
      | nil => rw [State.takeAllDue_of_none _ dues]; exact dues
      | cons e rest =>
        cases rest with
        | nil =>
          rw [State.takeAllDue_of_one ready dues] at still ⊢
          obtain ⟨-, fewer⟩ := ok.length_lt ready (by rw [dues]; exact List.mem_singleton_self e) still
          rw [dues, List.length_singleton] at fewer
          exact List.eq_nil_of_length_eq_zero (Nat.lt_one_iff.mp fewer)
        | cons f rest =>
          rw [State.takeAllDue_of_several ready dues] at still ⊢
          by_cases running : ({ s with free := s.free + 1 }.takeDue (s.nextDue e (f :: rest))).device = .ready
          · obtain ⟨after, fewer⟩ := ok.nextDue ready dues running
            exact ih after (by omega) still running
          · rw [State.takeAllDue_of_notReady running] at still
            exact absurd still running
  · rw [State.takeAllDue_of_notReady ready] at still
    exact absurd still ready

/-- With nothing due no deadline equals now. -/
theorem State.ahead_of_noDues {s : State} (noDues : s.dueEvents = []) :
    (∀ i r p h, s.record i = some r → r.holder p = some h → h.deadline ≠ s.now) ∧
    (∀ i r, s.record i = some r → ∀ w ∈ r.waiters, w.state = .queued → w.deadline ≠ s.now) ∧
    ∀ ch, (s.chan ch).state ≠ .guard s.now := by
  have absent : ∀ e, e ∉ s.dueEvents := fun e mem => by rw [noDues] at mem; cases mem
  refine ⟨fun i r p h stands held due => ?_, fun i r stands w mem queued due => ?_, fun ch due => ?_⟩
  · exact absent _ (State.mem_dueEvents_iff.mpr (Or.inl ⟨i, r, p, h, stands, held, due, rfl⟩))
  · exact absent _ (State.mem_dueEvents_iff.mpr (Or.inr (Or.inl ⟨i, r, stands, w, mem, queued, due, rfl⟩)))
  · exact absent _ (State.mem_dueEvents_iff.mpr (Or.inr (Or.inr (Or.inl ⟨ch, due, rfl⟩))))

theorem duesOk_of_invariants {s : State} (claims : ClaimTableInv s) (deadlines : DeadlineInv s) : DuesOk s :=
  ⟨((claimTableInv_iff s).mp claims).1, fun i r stands w mem => deadlines.stored i r stands w mem⟩

/-! ### TICK -/

theorem exec_tick_eq (s : State) : exec .tick s = .next
    (let u : State :=
        { if s.device = .ready then State.takeAllDue s.dueEvents.length s else s with restartTick := false }
     if u.device = .ready then u.advanceNow else u) := rfl

theorem exec_tick_of_ready {s : State} (ready : s.device = .ready) : exec .tick s = .next
    (if (State.takeAllDue s.dueEvents.length s).device = .ready then (State.takeAllDue s.dueEvents.length s).tickOn
      else { State.takeAllDue s.dueEvents.length s with restartTick := false }) := by
  rw [exec_tick_eq, if_pos ready]
  rfl

theorem exec_tick_of_notReady {s : State} (notReady : s.device ≠ .ready) :
    exec .tick s = .next { s with restartTick := false } := by
  rw [exec_tick_eq, if_neg notReady]
  dsimp only
  rw [if_neg notReady]

/-- A row other than TICK leaves now, or a reset has cleared it (R32). -/
theorem exec_now {c : Instr} {s t : State} (notTick : c ≠ .tick) (row : exec c s = .next t) :
    t.now = s.now ∨ t.now = 0#32 ∧ t.device ≠ .ready := by
  obtain ⟨u, row', runs⟩ := exec_runs c s notTick
  cases row.symm.trans row'
  rcases runs with work | boundary
  · exact Or.inl work.sameBoot.now
  · cases boundary.bounds with
    | outside change => rw [change.same]; exact Or.inl rfl
    | reset _ begun => exact Or.inr ⟨begun.cleared.now, by simp [begun.cleared.device]⟩
    | restart _ begun selected =>
      exact Or.inr ⟨selected.now.trans begun.cleared.now, by simp [selected.device]⟩
    | boot _ change selected => rw [selected.now, change.same]; exact Or.inl rfl
    | bootEnd => exact Or.inl s.endBoot_now

/-- Settles O26: each due event is taken by its row, which leaves fewer; the count of them is fuel enough. -/
theorem tickAdvances : Obligations.TickAdvances := by
  unfold Obligations.TickAdvances
  intro s
  refine ⟨fun e => State.mem_dueEvents_iff, fun ready => ⟨fun p key => ?lease, fun p key => ?wait, fun ch => ?guard,
    fun running => ?hold⟩, exec_tick_of_notReady, fun ready noDues => ?quiet, fun e ready one => ?one,
    fun ready several claims deadlines => ?several, fun t row ready still => ?advanced, fun c t => exec_now⟩
  case lease =>
    show Host.Outcome.next (if s.device = .ready then _ else _) = _
    rw [if_pos ready]; rfl
  case wait =>
    show Host.Outcome.next (if s.device = .ready then _ else _) = _
    rw [if_pos ready]; rfl
  case guard =>
    show Host.Outcome.next (if s.device = .ready then _ else _) = _
    rw [if_pos ready]; rfl
  case hold =>
    show execRestartHoldEnd s = _
    unfold execRestartHoldEnd
    cases hold : s.hold with
    | none => exact absurd hold running
    | holding => rfl
    | due => rfl
  case quiet =>
    rw [exec_tick_of_ready ready, State.takeAllDue_of_none _ noDues, if_pos ready]
    rfl
  case one =>
    intro t
    have taken : State.takeAllDue s.dueEvents.length s = s.takeDue e := by
      rw [one]; exact State.takeAllDue_of_one ready one
    rw [exec_tick_of_ready ready, taken]
    exact ⟨fun still => by rw [if_pos (show (s.takeDue e).device = .ready from still)]; rfl,
      fun ended => by rw [if_neg (show (s.takeDue e).device ≠ .ready from ended)]⟩
  case several =>
    have ok := duesOk_of_invariants claims deadlines
    obtain ⟨e, f, rest, dues⟩ : ∃ e f rest, s.dueEvents = e :: f :: rest := by
      match s.dueEvents, several with
      | e :: f :: rest, _ => exact ⟨e, f, rest, rfl⟩
    refine ⟨s.nextDue e (f :: rest), by rw [dues]; exact s.nextDue_mem e (f :: rest), ?_⟩
    have taken : State.takeAllDue s.dueEvents.length s =
        State.takeAllDue (f :: rest).length ({ s with free := s.free + 1 }.takeDue (s.nextDue e (f :: rest))) := by
      rw [dues]; exact State.takeAllDue_of_several ready dues
    rw [exec_tick_of_ready ready, taken]
    by_cases still : ({ s with free := s.free + 1 }.takeDue (s.nextDue e (f :: rest))).device = .ready
    · obtain ⟨after, fewer⟩ := ok.nextDue ready dues still
      rw [exec_tick_of_ready still, after.takeAllDue_fuel (n := (f :: rest).length) ?_ (Nat.le_refl _)]
      rw [dues, List.length_cons] at fewer
      exact Nat.le_of_lt_succ fewer
    · rw [exec_tick_of_notReady still, State.takeAllDue_of_notReady still, if_neg still]
  case advanced =>
    rw [exec_tick_of_ready ready] at row
    have taken := State.takeAllDue_taken s.dueEvents.length ready Work.refl
    by_cases running : (State.takeAllDue s.dueEvents.length s).device = .ready
    · rw [if_pos running] at row
      cases row
      have now : (State.takeAllDue s.dueEvents.length s).now = s.now := by
        generalize State.takeAllDue s.dueEvents.length s = u at taken running
        cases taken with
        | work work => exact work.sameBoot.now
        | @restart v => exact absurd running v.endHold_device_ne_ready
      refine ⟨by show (State.takeAllDue s.dueEvents.length s).now + 1#32 = _; rw [now], fun claims deadlines => ?_⟩
      have ok := duesOk_of_invariants claims deadlines
      have ahead := State.ahead_of_noDues (ok.takeAllDue_clears (Nat.le_refl _) running)
      rw [now] at ahead
      exact ahead
    · rw [if_neg running] at row
      cases row
      exact absurd still running

/-! ### The deadlines along every row -/

/-- DeadlineInv with what it rests on: the claims, an empty table and now at 0 outside READY, the configuration in
range. -/
structure DeadlineKept (s : State) : Prop where
  claims : ClaimsInv s
  rests : s.restsEmpty
  now : s.device ≠ .ready → s.now = 0#32
  inRange : s.cfg.effective.inRange = true
  deadlines : DeadlineInv s

theorem DeadlineKept.duesOk {s : State} (kept : DeadlineKept s) : DuesOk s :=
  ⟨kept.claims, fun i r stands w mem => kept.deadlines.stored i r stands w mem⟩

theorem DeadlineKept.limits {s : State} (kept : DeadlineKept s) : s.cfg.effective.staged :=
  Image.staged_of_inRange kept.inRange

/-- A deadline formed from now lies as far ahead as what it is formed from. -/
theorem formed_ahead {now : Word} {ticks : Half} (bound : ticks ≤ 60000#16) :
    now + ticks.setWidth 32 - now ≤ 60000#32 := by
  bv_omega

theorem DeadlineKept.claimMove {D E : Set RecIx} {s t : State} (kept : DeadlineKept s) (move : ClaimMove D E s t) :
    DeadlineInv t := by
  have same := move.sameBoot
  have stored := kept.duesOk.stored
  have leases : ∀ p lease, s.leaseFits p lease → lease ≤ 60000#16 := fun p lease fits =>
    BitVec.le_trans fits.2 (kept.limits.1 p).1
  refine ⟨fun i r stands p h held => ?_, fun i r stands w mem queued => ?_,
    fun i r stands w mem => move.leasesStored stored i r stands w mem, fun ch => ?_⟩
  · rw [same.now]
    rcases (move.claimsFrom i r stands).1 p h held with
        ⟨r', h', stands', -, held', -, deadline | ⟨lease, fits, formed⟩⟩ | ⟨-, -, lease, grantable, formed⟩
    · rw [← deadline]; exact kept.deadlines.leases i r' stands' p h' held'
    · rw [formed]; exact formed_ahead (leases p lease fits)
    · rw [formed]; exact formed_ahead (leases p lease (State.grantable_fits stored grantable))
  · rw [same.now]
    rcases (move.claimsFrom i r stands).2 w mem with ⟨r', stands', -, w', mem', -, -, deadline⟩ |
        ⟨-, wait, -, fits, formed⟩
    · obtain ⟨queued', deadline⟩ := deadline queued
      rw [← deadline]
      exact kept.deadlines.waits i r' stands' w' mem' queued'
    · rw [formed]; exact formed_ahead (BitVec.le_trans fits (kept.limits.1 w.port).2)
  · obtain ⟨guard, bound, ahead⟩ := kept.deadlines.guards ch
    rw [(same.chan ch).2, same.effective, same.now]
    refine ⟨guard, bound, fun deadline state => ?_⟩
    rcases (move.channel ch).guard_from state with before | ⟨-, formed⟩
    · exact ahead deadline before
    · rw [formed]
      bv_omega

/-- Where the claims, the guards, now and the configuration are the same, so are the deadlines. -/
theorem DeadlineInv.of_same {s t : State} (inv : DeadlineInv s) (record : ∀ i, t.record i = s.record i)
    (now : t.now = s.now) (effective : t.cfg.effective = s.cfg.effective)
    (guard : ∀ ch, (t.chan ch).guard = (s.chan ch).guard)
    (guards : ∀ ch deadline, (t.chan ch).state = .guard deadline → (s.chan ch).state = .guard deadline) :
    DeadlineInv t := by
  constructor
  case leases => simp only [record, now]; exact inv.leases
  case waits => simp only [record, now]; exact inv.waits
  case stored => simp only [record, State.settings, effective]; exact inv.stored
  case guards =>
    intro ch
    rw [guard, effective, now]
    obtain ⟨same, bound, ahead⟩ := inv.guards ch
    exact ⟨same, bound, fun deadline state => ahead deadline (guards ch deadline state)⟩

theorem Move.deadlineKept {D E : Set RecIx} {s t : State} (move : Move D E s t) (kept : DeadlineKept s) :
    DeadlineKept t := by
  have same := move.sameBoot
  refine ⟨move.claimsInv kept.claims, move.restsEmpty kept.rests, by rw [same.device, same.now]; exact kept.now,
    by rw [same.effective]; exact kept.inRange, ?_⟩
  cases move with
  | claim _ move => exact kept.claimMove move
  | store move =>
    have only := move.only
    exact kept.deadlines.of_same (State.record_of_table only.table) same.now same.effective (fun ch => (same.chan ch).2)
      fun ch deadline state => by rw [State.chan, only.chans] at state; exact state
  | link move =>
    exact kept.deadlines.of_same (State.record_of_table move.only.table) same.now same.effective
      (fun ch => (same.chan ch).2) fun _ _ => move.guard_from

theorem Outside.deadlineKept {s t : State} (outside : Outside s t) (kept : DeadlineKept s) : DeadlineKept t := by
  refine ⟨kept.claims.of_same outside.claimsSame, outside.restsEmpty kept.rests, ?_, ?_, ?_⟩
  · rw [outside.same]; exact kept.now
  · rw [outside.same]; exact kept.inRange
  · rw [outside.same]; exact kept.deadlines.of_same (fun _ => rfl) rfl rfl (fun _ => rfl) fun _ _ => id

/-- With no claim the deadlines are the guards'. -/
theorem deadlineInv_of_empty {s : State} (empty : ∀ i, s.record i = none)
    (guards : ∀ ch : Channel, (s.chan ch).guard = (s.cfg.effective.chan ch).guard ∧ (s.chan ch).guard ≤ 10000#16 ∧
      ∀ deadline, (s.chan ch).state = .guard deadline → deadline - s.now ≤ (s.chan ch).guard.setWidth 32) :
    DeadlineInv s := by
  have gone : ∀ {i r}, r ∈ s.record i → False := fun {i r} stands => by rw [empty] at stands; cases stands
  exact ⟨fun i r stands => (gone stands).elim, fun i r stands => (gone stands).elim,
    fun i r stands => (gone stands).elim, guards⟩

theorem ResetBegun.deadlineKept {s t : State} (begun : ResetBegun s t) : DeadlineKept t := by
  refine ⟨begun.claimsInv, fun _ => begun.cleared.table, fun _ => begun.cleared.now,
    by rw [begun.cfg]; exact Image.factoryDefault_inRange, deadlineInv_of_empty begun.cleared.table fun ch => ?_⟩
  rw [begun.chan, begun.cfg, show ConfigUnit.reset.effective = Image.factoryDefault from rfl, Image.chan_factoryDefault]
  exact ⟨rfl, (by decide : (0#16 : Half) ≤ 10000#16), (fun _ h => nomatch h)⟩

theorem BootSelected.deadlineKept {s t : State} (selected : BootSelected s t) (inReset : s.device = .inReset)
    (kept : DeadlineKept s) : DeadlineKept t := by
  have notReady : s.device ≠ .ready := by simp [inReset]
  have inRange := selected.effective_good.1
  have now : t.now = 0#32 := selected.now.trans (kept.now notReady)
  refine ⟨kept.claims.of_same selected.claimsSame, selected.restsEmpty inReset kept.rests, fun _ => now, inRange,
    deadlineInv_of_empty (fun i => (State.record_of_table selected.table i).trans (kept.rests notReady i)) fun ch => ?_⟩
  rw [selected.chans, now]
  refine ⟨rfl, (Image.staged_of_inRange inRange).2 ch, fun deadline state => ?_⟩
  unfold startChannel at state ⊢
  dsimp only at state ⊢
  split at state
  · cases state
  · split at state
    · cases state
    · cases state
      rw [BitVec.sub_zero]
      exact BitVec.le_refl _

theorem State.endBoot_deadlineKept {s : State} (kept : DeadlineKept s) : DeadlineKept s.endBoot := by
  have only := s.endBoot_only
  have chan : ∀ ch, s.endBoot.chan ch = s.chan ch := fun ch => by rw [State.chan, State.chan, only.chans]
  exact ⟨kept.claims.of_same only.claimsSame, fun notReady => absurd s.endBoot_device notReady,
    fun notReady => absurd s.endBoot_device notReady, by rw [State.endBoot_effective]; exact kept.inRange,
    kept.deadlines.of_same (State.record_of_table only.table) s.endBoot_now s.endBoot_effective
      (fun ch => by rw [chan]) fun ch deadline state => by rw [chan] at state; exact state⟩

/-- A deadline that is not now's lies a tick less far ahead of the next now. -/
theorem ahead_of_next {deadline now bound : Word} (ahead : deadline - now ≤ bound) (other : deadline ≠ now) :
    deadline - (now + 1#32) ≤ bound := by
  bv_omega

theorem State.tickOn_deadlineKept {s : State} (ready : s.device = .ready) (noDues : s.dueEvents = [])
    (kept : DeadlineKept s) : DeadlineKept s.tickOn := by
  obtain ⟨leases, waits, guards⟩ := State.ahead_of_noDues noDues
  refine ⟨kept.claims.of_same (.of_ports rfl rfl rfl), fun notReady => absurd ready notReady,
    fun notReady => absurd ready notReady, kept.inRange, fun i r stands p h held => ?_,
    fun i r stands w mem queued => ?_, kept.deadlines.stored, fun ch => ?_⟩
  · exact ahead_of_next (kept.deadlines.leases i r stands p h held) (leases i r p h stands held)
  · exact ahead_of_next (kept.deadlines.waits i r stands w mem queued) (waits i r stands w mem queued)
  · obtain ⟨same, bound, ahead⟩ := kept.deadlines.guards ch
    refine ⟨same, bound, fun deadline state => ahead_of_next (ahead deadline state) ?_⟩
    rintro rfl
    exact guards ch state

/-- Settles O60: each change forms a deadline within its limit from now; TICK takes what is due before now advances. -/
theorem deadlineInvariantKept : Obligations.DeadlineInvariantKept := by
  unfold Obligations.DeadlineInvariantKept
  intro s t row table device config deadlines
  obtain ⟨claims, -⟩ := (claimTableInv_iff s).mp table
  exact (step_keeps_dues (P := DeadlineKept) (fun move => move.deadlineKept) (fun outside => outside.deadlineKept)
    (fun begun _ => begun.deadlineKept) (fun inReset selected => selected.deadlineKept inReset)
    (fun _ => State.endBoot_deadlineKept)
    (fun ready before dues work kept => State.tickOn_deadlineKept (work.sameBoot.device.trans ready)
      (dues ▸ before.duesOk.takeAllDue_clears (Nat.le_refl _) (dues ▸ work.sameBoot.device.trans ready)) kept)
    row ⟨claims, device.table, device.now, config.limits, deadlines⟩).deadlines

end Sys2Proof.Machine
end

section
/-! The pins of the link, one change at a time: what an edge of CSn or of SCK does to its port. -/

namespace Sys2Proof.Machine

/-! ### A row that carries its pins -/

section
variable {u : PortUnit} {s : State} {kind : TransferKind} {p : Port} {c : PinChange}

theorem PortUnit.carries_iff :
    u.carries kind = true ↔ ∀ t k, u.transfer = some t → t.kind = some k → k = kind := by
  unfold PortUnit.carries
  split
  · rename_i t found
    rw [Option.all_eq_true]
    refine ⟨fun all t' k found' named => ?_, fun all k named => beq_iff_eq.mpr (all t k found named)⟩
    cases found.symm.trans found'
    exact beq_iff_eq.mp (all k named)
  · rename_i idle
    exact iff_of_true rfl fun t k found => by rw [idle] at found; cases found

theorem PortUnit.carries_of_idle (idle : u.transfer = none) : u.carries kind = true :=
  carries_iff.mpr fun t k found => by rw [idle] at found; cases found

theorem PortUnit.carries_of_transfer {t : Transfer} (found : u.transfer = some t)
    (same : ∀ k, t.kind = some k → k = kind) : u.carries kind = true :=
  carries_iff.mpr fun _ k found' named => same k (Option.some.inj (found.symm.trans found') ▸ named)

/-- A change that is carried changes its port (R136). -/
theorem State.changePin_carried (carried : (s.port p).carries kind = true) :
    State.changePin kind p s c =
      { s with free := s.free + 1 }.setPort p ((s.port p).change s.device p s.free c) := by
  rw [State.changePin, if_pos carried]

/-- A change that is not carried is lost (log 28). -/
theorem State.changePin_lost (lost : (s.port p).carries kind = false) :
    State.changePin kind p s c = { s with free := s.free + 1 }.setPort p (s.port p) := by
  rw [State.changePin, if_neg (by simp [lost])]

/-- A level that its pin has already. -/
theorem State.changePin_level (stays : (s.port p).pins.level c = levelOf c) :
    State.changePin kind p s c = { s with free := s.free + 1 }.setPort p (s.port p) := by
  rw [State.changePin, PortUnit.change_level p stays, ite_self]

/-- SDI moves alone, in every device state. -/
theorem PortUnit.change_sdi (device : DeviceState) (n : Nat) (b : Bool) :
    u.change device p n (.sdi b) = { u with pins := { u.pins with sdi := b } } := by
  by_cases stays : u.pins.level (.sdi b) = levelOf (.sdi b)
  · rw [PortUnit.change_level p stays, ← show u.pins.sdi = b from stays]
  · cases device with
    | inReset => exact PortUnit.change_inReset p stays
    | boot => exact PortUnit.change_edge p stays (by decide)
    | ready => exact PortUnit.change_edge p stays (by decide)

/-- In IN_RESET a pin moves alone. -/
theorem PortUnit.change_of_inReset (n : Nat) (c : PinChange) :
    u.change .inReset p n c = { u with pins := u.pins.after c } := by
  by_cases stays : u.pins.level c = levelOf c
  · rw [PortUnit.change_level p stays]
    cases c with
    | csn b => rw [show b = u.pins.csn from stays.symm]; rfl
    | sck b => rw [show b = u.pins.sck from stays.symm]; rfl
    | sdi b => rw [show b = u.pins.sdi from stays.symm]; rfl
  · exact PortUnit.change_inReset p stays

/-- A row of any kind with one pin change. -/
theorem exec_ofAnyKind {i : Instr} (row : i = .send p c [] ∨ i = .fetch p c [] ∨ i = .poll p c [] ∨
    i = .unrecognisedKindByte p c []) : ∃ kind, exec i s = .next (State.changePin kind p s c) := by
  rcases row with rfl | rfl | rfl | rfl
  · exact ⟨.send, rfl⟩
  · exact ⟨.fetch, rfl⟩
  · exact ⟨.poll, rfl⟩
  · exact ⟨.unrecognised, rfl⟩

end

/-- Settles O31: a row is a fold of its pin changes, and each is a change of its port's unit. -/
theorem pinChangesOneByOne : Obligations.PinChangesOneByOne := by
  unfold Obligations.PinChangesOneByOne
  intro s kind p row only
  have taken : ∀ c pins s', exec (row c pins) s' = .next (s'.changePins kind p (c :: pins)) := by
    cases kind <;> exact fun c pins s' => rfl
  have one : ∀ c u, State.changePin kind p s c = { s with free := s.free + 1 }.setPort p u → only c u :=
    fun c u changed => (taken c [] s).trans (congrArg _ changed)
  refine ⟨fun c => ?next, fun c pins => ?all, fun c t k found named other => ?lost, ?csn, ?sck, ?sdi,
    fun same => ⟨fun b => ?moves, fun b inReset => ⟨?csnAlone, ?sckAlone⟩⟩⟩
  case next =>
    obtain ⟨u, changed⟩ := s.changePin_eq kind p c
    refine ⟨u, one c u changed, fun d pins => ?_⟩
    rw [taken, taken, State.changePins_cons, changed]
  case all =>
    obtain ⟨u, changed⟩ := s.changePins_eq kind p (c :: pins)
    refine ⟨u, ?_⟩
    rw [taken, changed, List.length_cons, Nat.add_assoc, Nat.add_comm 1]
  case lost =>
    refine one c _ (State.changePin_lost (Bool.eq_false_iff.mpr fun carried => ?_))
    exact other (PortUnit.carries_iff.mp carried t k found named)
  case csn => exact one _ _ (State.changePin_level rfl)
  case sck => exact one _ _ (State.changePin_level rfl)
  case sdi => exact one _ _ (State.changePin_level rfl)
  case moves =>
    exact one _ _ (by rw [State.changePin_carried (PortUnit.carries_iff.mpr same), PortUnit.change_sdi])
  case csnAlone =>
    refine one _ _ ?_
    rw [State.changePin_carried (PortUnit.carries_iff.mpr same), inReset, PortUnit.change_of_inReset]
    rfl
  case sckAlone =>
    refine one _ _ ?_
    rw [State.changePin_carried (PortUnit.carries_iff.mpr same), inReset, PortUnit.change_of_inReset]
    rfl

/-! ### The fall of CSn -/

section
variable {u : PortUnit} {device : DeviceState} {p : Port} {n : Nat}

/-- The fall of CSn in mode 0: the first bit of the status byte is on SDO (R136, R137). -/
theorem PortUnit.change_fall_csn_mode0 (running : device ≠ .inReset) (high : u.pins.csn = true)
    (sck : u.pins.sck = false) : u.change device p n (.csn false) = { u with
      pins := { u.pins with csn := false }
      transfer := some ⟨.mode0, none, [], (bitsOfByte (statusByte device u)).tail⟩
      sdo := some ((statusByte device u).getLsbD 7)
      sampled := [] } := by
  rw [PortUnit.change_edge p (by simp [LinkPins.level, levelOf, high]) running, PortUnit.edge]
  unfold PortUnit.beginTransfer
  rw [show (u.pins.after (.csn false)).sck = false from sck]
  rfl

/-- The fall of CSn in mode 3: the level of SDO is open up to the first fall of SCK (R136, R137, log 29). -/
theorem PortUnit.change_fall_csn_mode3 (running : device ≠ .inReset) (high : u.pins.csn = true)
    (sck : u.pins.sck = true) : u.change device p n (.csn false) = { u with
      pins := { u.pins with csn := false }
      transfer := some ⟨.mode3, none, [], bitsOfByte (statusByte device u)⟩
      sdo := some (Config.sdoBeforeFirstBit n)
      sampled := [] } := by
  rw [PortUnit.change_edge p (by simp [LinkPins.level, levelOf, high]) running, PortUnit.edge]
  unfold PortUnit.beginTransfer
  rw [show (u.pins.after (.csn false)).sck = true from sck]
  rfl

end

/-- Settles O32: the fall of CSn is an edge that is carried, and the level of SCK chooses the mode. -/
theorem transactionBegins : Obligations.TransactionBegins := by
  unfold Obligations.TransactionBegins
  intro s p c anyKind running high idle status begun
  obtain ⟨kind, row⟩ := exec_ofAnyKind (s := s) anyKind
  rw [State.changePin_carried (PortUnit.carries_of_idle idle)] at row
  refine ⟨fun sck => ?_, fun sck => ⟨Config.sdoBeforeFirstBit s.free, ?_⟩⟩
  · rw [PortUnit.change_fall_csn_mode0 running high sck] at row
    exact row
  · rw [PortUnit.change_fall_csn_mode3 running high sck] at row
    exact row

/-! ### The clocks -/

/-- Fewer than eight bits complete no byte. -/
theorem bytesOfBits_of_length_lt {bits : List Bool} (short : bits.length < 8) : bytesOfBits bits = [] := by
  rw [← bytesOfBits_bitsOfBytes [] bits short]
  rfl

section
variable {u : PortUnit} {t : Transfer} {device : DeviceState} {p : Port} {n : Nat} {b status : Byte}

theorem PortUnit.shiftOut_of_bit {o : Bool} {rest : List Bool} (out : t.bitsOut = o :: rest) :
    u.shiftOut t n = { u with transfer := some { t with bitsOut := rest }, sdo := some o } := by
  rw [PortUnit.shiftOut, out]

theorem PortUnit.shiftOut_of_none (out : t.bitsOut = []) : u.shiftOut t n = { u with sdo := some (t.filler n) } := by
  rw [PortUnit.shiftOut, out]

theorem PortUnit.sample_of_short (short : t.bitsIn.length < 7) :
    u.sample t status = { u with
      sampled := u.sampled ++ u.sdo.toList
      transfer := some { t with bitsIn := t.bitsIn ++ [u.pins.sdi] } } := by
  have incomplete : bytesOfBits (t.bitsIn ++ [u.pins.sdi]) = [] :=
    bytesOfBits_of_length_lt (by rw [List.length_append]; exact Nat.succ_lt_succ short)
  rw [PortUnit.sample]
  dsimp only
  rw [incomplete]

theorem PortUnit.sample_of_seven {b7 b6 b5 b4 b3 b2 b1 : Bool} (seven : t.bitsIn = [b7, b6, b5, b4, b3, b2, b1]) :
    u.sample t status = ({ u with sampled := u.sampled ++ u.sdo.toList } : PortUnit).takeByte t
      (byteOfBits b7 b6 b5 b4 b3 b2 b1 u.pins.sdi) status := by
  rw [PortUnit.sample, seven]
  rfl

theorem PortUnit.takeByte_kind (first : t.kind = none) :
    u.takeByte t b status = { u with
      rx := if kindOfByte b = .send then [] else u.rx
      transfer := some { t with
        kind := some (kindOfByte b), bitsIn := [], bitsOut := u.bitsAfterKind status (kindOfByte b) } } := by
  rw [PortUnit.takeByte, first]

theorem PortUnit.takeByte_send (kind : t.kind = some .send) :
    u.takeByte t b status = { u with
      rx := if u.rx.length < 16 then u.rx ++ [b] else u.rx
      transfer := some { t with kind := some .send, bitsIn := [], bitsOut := bitsOfByte status } } := by
  unfold PortUnit.takeByte
  rw [kind]
  dsimp only
  unfold PortUnit.storeByte
  split
  · rfl
  · rfl

theorem PortUnit.takeByte_poll (kind : t.kind = some .poll) :
    u.takeByte t b status = { u with
      transfer := some { t with kind := some .poll, bitsIn := [], bitsOut := bitsOfByte status } } := by
  unfold PortUnit.takeByte
  rw [kind]

/-- FETCH and an unrecognised transaction keep what they shift out. -/
theorem PortUnit.takeByte_keeps {k : TransferKind} (keeps : k = .fetch ∨ k = .unrecognised) (kind : t.kind = some k) :
    u.takeByte t b status = { u with
      transfer := some { t with kind := some k, bitsIn := [], bitsOut := t.bitsOut } } := by
  unfold PortUnit.takeByte
  rw [kind]
  rcases keeps with rfl | rfl
  · rfl
  · rfl

theorem kindOfByte_of_other (notSend : b ≠ 0xA1#8) (notFetch : b ≠ 0xA2#8) (notPoll : b ≠ 0xA4#8) :
    kindOfByte b = .unrecognised := by
  rw [kindOfByte, kindSend, kindFetch, kindPoll, if_neg notSend, if_neg notFetch, if_neg notPoll]

end

section
variable {u : PortUnit} {t : Transfer} {device : DeviceState} {p : Port} {n : Nat}

/-- With no transaction an edge of SCK moves the pin alone, but for a fall with CSn low (R136, R138). -/
theorem PortUnit.change_sck_of_idle (running : device ≠ .inReset) (idle : u.transfer = none) (b : Bool)
    (unseen : b = true ∨ u.pins.csn = true) :
    u.change device p n (.sck b) = { u with pins := { u.pins with sck := b } } := by
  by_cases stays : u.pins.sck = b
  · rw [PortUnit.change_level p (c := .sck b) stays, ← stays]
  · rw [PortUnit.change_edge p (c := .sck b) stays running]
    cases b with
    | true =>
      show (match u.transfer with
        | some t => PortUnit.sample _ t _
        | none => _) = _
      rw [idle]
      rfl
    | false =>
      show (match u.transfer with
        | some t => PortUnit.shiftOut _ t n
        | none => PortUnit.ignoreFall _ n) = _
      rw [idle]
      exact if_pos (unseen.resolve_left (by decide))

/-- A fall of SCK with CSn low and no transaction (R138, log 30). -/
theorem PortUnit.change_fall_ignored (running : device ≠ .inReset) (idle : u.transfer = none)
    (low : u.pins.csn = false) (high : u.pins.sck = true) : u.change device p n (.sck false) =
      { u with pins := { u.pins with sck := false }, sdo := some (Config.sdoWhileIgnored n) } := by
  rw [PortUnit.change_edge p (by simp [LinkPins.level, levelOf, high]) running]
  show (match u.transfer with
    | some t => PortUnit.shiftOut _ t n
    | none => PortUnit.ignoreFall _ n) = _
  rw [idle]
  exact if_neg (by simp [LinkPins.after, low])

/-- A fall of SCK in a transaction (R137). -/
theorem PortUnit.change_fall (running : device ≠ .inReset) (found : u.transfer = some t) (high : u.pins.sck = true) :
    u.change device p n (.sck false) = ({ u with pins := { u.pins with sck := false } } : PortUnit).shiftOut t n := by
  rw [PortUnit.change_edge p (by simp [LinkPins.level, levelOf, high]) running]
  show (match u.transfer with
    | some t => PortUnit.shiftOut _ t n
    | none => PortUnit.ignoreFall _ n) = _
  rw [found]
  rfl

/-- A rise of SCK in a transaction (R137). -/
theorem PortUnit.change_rise (running : device ≠ .inReset) (found : u.transfer = some t) (low : u.pins.sck = false) :
    u.change device p n (.sck true) =
      ({ u with pins := { u.pins with sck := true } } : PortUnit).sample t (statusByte device u) := by
  rw [PortUnit.change_edge p (by simp [LinkPins.level, levelOf, low]) running]
  show (match u.transfer with
    | some t => PortUnit.sample _ t _
    | none => _) = _
  rw [found]
  rfl

end

/-- Settles O33: an edge of SCK with no transaction, the fall and the rise inside one, and the eighth rise by the
kind of the transaction. -/
theorem transactionClocked : Obligations.TransactionClocked := by
  unfold Obligations.TransactionClocked
  intro s kind p u row becomes low high status running
  have one : ∀ c v, u.carries kind = true → u.change s.device p s.free c = v → becomes c v := by
    intro c v carried changed
    have taken : State.changePin kind p s c = { s with free := s.free + 1 }.setPort p v := by
      rw [State.changePin_carried carried, ← changed]
    cases kind <;> exact congrArg _ taken
  refine ⟨fun idle csn => ?csnHigh, fun idle csn sck => ?ignoredFall, fun idle csn => ?ignoredRise,
    fun t found same => ?transaction⟩
  case csnHigh =>
    exact ⟨one _ _ (PortUnit.carries_of_idle idle) (PortUnit.change_sck_of_idle running idle false (Or.inr csn)),
      one _ _ (PortUnit.carries_of_idle idle) (PortUnit.change_sck_of_idle running idle true (Or.inl rfl))⟩
  case ignoredFall =>
    exact ⟨_, one _ _ (PortUnit.carries_of_idle idle) (PortUnit.change_fall_ignored running idle csn sck)⟩
  case ignoredRise =>
    exact one _ _ (PortUnit.carries_of_idle idle) (PortUnit.change_sck_of_idle running idle true (Or.inl rfl))
  have carried : u.carries kind = true := PortUnit.carries_of_transfer found same
  refine ⟨fun sck => ?fall, fun sck => ?rise⟩
  case fall =>
    have falls := PortUnit.change_fall (p := p) (n := s.free) running found sck
    refine ⟨fun b rest out => ?bit, fun out fetch => ?ones, fun out other => ?free⟩
    case bit => exact one _ _ carried (falls.trans (PortUnit.shiftOut_of_bit out))
    case ones =>
      refine one _ _ carried (falls.trans ((PortUnit.shiftOut_of_none out).trans ?_))
      rw [Transfer.filler, fetch]
    case free => exact ⟨_, one _ _ carried (falls.trans (PortUnit.shiftOut_of_none out))⟩
  case rise =>
    have rises := PortUnit.change_rise (p := p) (n := s.free) running found sck
    refine ⟨fun short => one _ _ carried (rises.trans (PortUnit.sample_of_short short)), ?_⟩
    intro b7 b6 b5 b4 b3 b2 b1 seven b next
    have byte : ∀ v, PortUnit.takeByte { high with sampled := u.sampled ++ u.sdo.toList } t b
        (statusByte s.device u) = v → becomes (.sck true) v := fun v takes =>
      one _ _ carried (rises.trans ((PortUnit.sample_of_seven seven).trans takes))
    refine ⟨fun first is => ?sendKind, fun first is => ?fetchKind, fun first is => ?pollKind,
      fun first notSend notFetch notPoll => ?otherKind, fun send => byte _ (PortUnit.takeByte_send send),
      fun poll => byte _ (PortUnit.takeByte_poll poll),
      fun fetch => byte _ (PortUnit.takeByte_keeps (Or.inl rfl) fetch),
      fun other => byte _ (PortUnit.takeByte_keeps (Or.inr rfl) other)⟩
    case sendKind => exact byte _ ((PortUnit.takeByte_kind first).trans (by rw [is]; rfl))
    case fetchKind => exact byte _ ((PortUnit.takeByte_kind first).trans (by rw [is]; rfl))
    case pollKind => exact byte _ ((PortUnit.takeByte_kind first).trans (by rw [is]; rfl))
    case otherKind =>
      exact byte _ ((PortUnit.takeByte_kind first).trans
        (by rw [kindOfByte_of_other notSend notFetch notPoll]; rfl))

/-! ### The rise of CSn -/

section
variable {u : PortUnit} {t : Transfer} {device : DeviceState} {p : Port} {n : Nat}

/-- The port after the rise of CSn, but for what its transaction leaves. -/
def PortUnit.released (u : PortUnit) : PortUnit :=
  { u with pins := { u.pins with csn := true }, transfer := none, sdo := none }

/-- The rise of CSn in READY concludes the transaction (R136, R142). -/
theorem PortUnit.change_rise_csn_ready (low : u.pins.csn = false) (found : u.transfer = some t) :
    u.change .ready p n (.csn true) = u.released.conclude p t.kind := by
  rw [PortUnit.change_edge p (by simp [LinkPins.level, levelOf, low]) (by decide)]
  show PortUnit.endTransfer _ .ready p = _
  unfold PortUnit.endTransfer
  dsimp only
  rw [found]
  rfl

/-- The rise of CSn with no transaction, or in BOOT, leaves nothing (R136, R153). -/
theorem PortUnit.change_rise_csn_of_none (low : u.pins.csn = false) (running : device ≠ .inReset)
    (nothing : u.transfer = none ∨ device = .boot) : u.change device p n (.csn true) = u.released := by
  rw [PortUnit.change_edge p (by simp [LinkPins.level, levelOf, low]) running]
  show PortUnit.endTransfer _ device p = _
  unfold PortUnit.endTransfer
  dsimp only
  split
  · rename_i ready t found
    rcases nothing with idle | boot
    · rw [idle] at found; cases found
    · cases boot
  · rfl

/-- The rise of CSn in a transaction, by the device state (R136, R153). -/
theorem PortUnit.change_rise_csn (low : u.pins.csn = false) (running : device ≠ .inReset)
    (found : u.transfer = some t) : u.change device p n (.csn true) =
      if device = .ready then u.released.conclude p t.kind else u.released := by
  cases device with
  | inReset => exact absurd rfl running
  | boot => exact PortUnit.change_rise_csn_of_none low running (Or.inr rfl)
  | ready => exact PortUnit.change_rise_csn_ready low found

end

/-! ### The decision of a frame -/

section
variable {u : PortUnit} {tag : BitVec 4} {code : Byte} {c : Instr} {r : Reply}

theorem PortUnit.isReplay_iff : u.isReplay tag = true ↔ tag ≠ 0#4 ∧ u.lastTag = some tag := by
  rw [PortUnit.isReplay, Bool.and_eq_true, bne_iff_ne, beq_iff_eq]

theorem PortUnit.decide_overrun {frame : FrameReading} (sound : frame ≠ .fault) (executing : u.executing = true) :
    u.decide frame = { u with overrun := true } := by
  cases frame with
  | fault => exact absurd rfl sound
  | unknown tag code => exact if_pos executing
  | command tag c => exact if_pos executing

theorem PortUnit.markReplayed_filled (filled : u.slot = .filled r) :
    u.markReplayed = { u with slot := .filled { r with replayed := true } } := by
  rw [PortUnit.markReplayed, filled]

theorem PortUnit.decide_unknown (free : u.executing = false) :
    u.decide (.unknown tag code) = if u.isReplay tag then u.markReplayed else u.answerUnknown tag code :=
  if_neg (by simp [free])

theorem PortUnit.decide_command (free : u.executing = false) :
    u.decide (.command tag c) = if u.isReplay tag then u.markReplayed else u.accept tag c :=
  if_neg (by simp [free])

end

/-- Settles O34: the rise of CSn concludes a SEND by its decision, case by case of the frame. -/
theorem sendDecision : Obligations.SendDecision := by
  unfold Obligations.SendDecision
  intro s p t low found send rx u becomes replay
  have carried : (s.port p).carries .send = true :=
    PortUnit.carries_of_transfer found fun k named => Option.some.inj (named.symm.trans send)
  have one : ∀ v, (s.port p).change s.device p s.free (.csn true) = v → becomes v := fun v changed =>
    congrArg Host.Outcome.next ((State.changePin_carried carried).trans (by rw [changed]))
  refine ⟨fun boot => ?_, fun ready => ?_⟩
  · exact one _ (PortUnit.change_rise_csn_of_none low (by simp [boot]) (Or.inr boot))
  have decides : ∀ v, u.decide (readFrame p rx) = v → becomes v := fun v decided => one v (by
    rw [ready, PortUnit.change_rise_csn_ready low found, send]
    exact decided)
  have isReplay : ∀ tag, u.isReplay tag = true ↔ replay tag := fun tag => PortUnit.isReplay_iff
  refine ⟨fun fault => ?fault, fun sound executing => ?overrun, fun free =>
    ⟨fun tag code unknown => ⟨fun fresh => ?answered, fun r again filled => ?unknownAgain⟩,
      fun tag c command => ⟨fun fresh => ?accepted, fun r again filled => ?commandAgain⟩⟩⟩
  case fault => exact decides _ (by rw [fault]; rfl)
  case overrun => exact decides _ (PortUnit.decide_overrun sound executing)
  case answered =>
    exact decides _ (by rw [unknown, PortUnit.decide_unknown (u := u) free, if_neg (mt (isReplay tag).mp fresh)]; rfl)
  case unknownAgain =>
    exact decides _ (by
      rw [unknown, PortUnit.decide_unknown (u := u) free, if_pos ((isReplay tag).mpr again),
        PortUnit.markReplayed_filled filled])
  case accepted =>
    exact decides _ (by rw [command, PortUnit.decide_command (u := u) free, if_neg (mt (isReplay tag).mp fresh)]; rfl)
  case commandAgain =>
    exact decides _ (by
      rw [command, PortUnit.decide_command (u := u) free, if_pos ((isReplay tag).mpr again),
        PortUnit.markReplayed_filled filled])

/-- Settles O35: the rise of CSn concludes every other transaction by its kind. -/
theorem transactionEnds : Obligations.TransactionEnds := by
  unfold Obligations.TransactionEnds
  intro s p u ended becomes low running
  refine ⟨fun c anyKind => ?_, fun t found => ?_⟩
  · obtain ⟨kind, row⟩ := exec_ofAnyKind (s := s) anyKind
    refine ⟨fun idle => ?none, fun t found unnamed => ?unnamed⟩
    case none =>
      rw [State.changePin_carried (PortUnit.carries_of_idle idle),
        PortUnit.change_rise_csn_of_none low running (Or.inl idle)] at row
      exact row
    case unnamed =>
      have carried : u.carries kind = true :=
        PortUnit.carries_of_transfer found fun k named => by rw [unnamed] at named; cases named
      rw [State.changePin_carried carried, PortUnit.change_rise_csn low running found, unnamed] at row
      refine row.trans (congrArg (fun v => Host.Outcome.next (State.setPort _ p v)) ?_)
      exact ite_self _
  · have one : ∀ k, t.kind = some k → State.changePin k p s (.csn true) = { s with free := s.free + 1 }.setPort p
        (if s.device = DeviceState.ready then u.released.conclude p (some k) else u.released) := fun k named => by
      have carried : u.carries k = true :=
        PortUnit.carries_of_transfer found fun k' named' => Option.some.inj (named'.symm.trans named)
      rw [State.changePin_carried carried, PortUnit.change_rise_csn low running found, named]
    refine ⟨fun fetch => ?fetch, fun poll => ?poll, fun other => ?other⟩
    case fetch => exact congrArg Host.Outcome.next ((one _ fetch).trans (congrArg _ (ite_self _)))
    case poll => exact congrArg Host.Outcome.next (one _ poll)
    case other => exact congrArg Host.Outcome.next (one _ other)

end Sys2Proof.Machine
end

section
/-! A whole transaction in one row: the byte that the host sends and the bits that it samples, clock by clock. -/

namespace Sys2Proof.Machine

/-! ### A row, on the unit of its port -/

/-- The unit of a port after the pin changes of a row. -/
def PortUnit.changes (device : DeviceState) (p : Port) (kind : TransferKind) :
    Nat → PortUnit → List PinChange → PortUnit
  | _, u, [] => u
  | n, u, c :: pins =>
    PortUnit.changes device p kind (n + 1) (if u.carries kind then u.change device p n c else u) pins

theorem State.port_changePins (kind : TransferKind) (p : Port) (s : State) (pins : List PinChange) :
    (s.changePins kind p pins).port p = (s.port p).changes s.device p kind s.free pins := by
  induction pins generalizing s with
  | nil => rfl
  | cons c pins ih =>
    rw [State.changePins_cons, ih, PortUnit.changes]
    congr 1
    exact (State.port_setPort _ p p _).trans (if_pos rfl)

section
variable {device : DeviceState} {p : Port} {kind : TransferKind}

theorem PortUnit.changes_append (n : Nat) (u : PortUnit) (a b : List PinChange) :
    u.changes device p kind n (a ++ b) =
      (u.changes device p kind n a).changes device p kind (n + a.length) b := by
  induction a generalizing n u with
  | nil => rfl
  | cons c a ih =>
    rw [List.cons_append, PortUnit.changes, ih, PortUnit.changes, List.length_cons, Nat.add_assoc, Nat.add_comm 1]

theorem PortUnit.changes_cons {u v : PortUnit} {n : Nat} {c : PinChange} (carried : u.carries kind = true)
    (changed : u.change device p n c = v) (pins : List PinChange) :
    u.changes device p kind n (c :: pins) = v.changes device p kind (n + 1) pins := by
  rw [PortUnit.changes, if_pos carried, changed]

end

/-! ### What a transaction shifts out -/

/-- The bits that SDO shows while `out` waits to be shifted out, and what of it is left: behind `out` a FETCH shows
ones, and another transaction open bits. -/
inductive ShiftsOut (kind : Option TransferKind) : List Bool → List Bool → List Bool → Prop
  | done (out : List Bool) : ShiftsOut kind out [] out
  | bit {out shown left : List Bool} (b : Bool) (rest : ShiftsOut kind out shown left) :
      ShiftsOut kind (b :: out) (b :: shown) left
  | filler {shown left : List Bool} {b : Bool} (ones : kind = some .fetch → b = true)
      (rest : ShiftsOut kind [] shown left) : ShiftsOut kind [] (b :: shown) left

section
variable {kind : Option TransferKind} {out mid left a b : List Bool}

theorem ShiftsOut.trans (first : ShiftsOut kind out a mid) (second : ShiftsOut kind mid b left) :
    ShiftsOut kind out (a ++ b) left := by
  induction first with
  | done => exact second
  | bit o _ ih => exact .bit o (ih second)
  | filler ones _ ih => exact .filler ones (ih second)

/-- Exactly the bits that wait are shown, when as many clocks come. -/
theorem ShiftsOut.eq_of_length (shifts : ShiftsOut kind out a left) (same : a.length = out.length) : a = out := by
  induction shifts with
  | done out => exact (List.eq_nil_of_length_eq_zero same.symm).symm
  | bit o _ ih => rw [ih (Nat.succ.inj same)]
  | filler => cases same

/-- A FETCH shows ones behind the bits that wait (R149). -/
theorem ShiftsOut.eq_take (shifts : ShiftsOut (some .fetch) out a left) {m : Nat} (enough : a.length ≤ m) :
    a = (out ++ List.replicate m true).take a.length := by
  induction shifts generalizing m with
  | done => rfl
  | bit o _ ih =>
    rw [List.length_cons, List.cons_append, List.take_succ_cons, ← ih (Nat.le_of_succ_le enough)]
  | filler ones _ ih =>
    obtain ⟨m, rfl⟩ := Nat.exists_eq_add_of_lt (Nat.lt_of_lt_of_le (Nat.succ_pos _) enough)
    rw [List.nil_append, Nat.zero_add] at *
    rw [List.length_cons, List.replicate_succ, List.take_succ_cons, ones rfl]
    exact congrArg _ (ih (Nat.le_of_succ_le_succ enough))

/-- A fall of SCK shows one bit more (R137). -/
theorem PortUnit.shiftOut_shifts {u : PortUnit} {t : Transfer} (found : u.transfer = some t) (n : Nat) :
    ∃ o left, ShiftsOut t.kind t.bitsOut [o] left ∧
      u.shiftOut t n = { u with transfer := some { t with bitsOut := left }, sdo := some o } := by
  cases out : t.bitsOut with
  | cons o left => exact ⟨o, left, .bit o (.done left), PortUnit.shiftOut_of_bit out⟩
  | nil =>
    refine ⟨t.filler n, [], .filler (fun fetch => ?_) (.done []), (PortUnit.shiftOut_of_none out).trans ?_⟩
    · rw [Transfer.filler, fetch]
    · rw [← out, ← found]

end

/-! ### The clocks of a byte -/

/-- The pin changes of one clock. -/
def clockOf (b : Bool) : List PinChange := [.sck false, .sdi b, .sck true]

/-- A port inside a transaction: its pins, its transaction, what SDO shows and has shown, and its buffer. -/
def PortUnit.inProgress (u : PortUnit) (sck sdi : Bool) (sdo : Option Bool) (t : Transfer) (sampled : List Bool)
    (rx : List Byte) : PortUnit :=
  { u with pins := ⟨false, sck, sdi⟩, transfer := some t, sdo := sdo, sampled := sampled, rx := rx }

section
variable {u : PortUnit} {device : DeviceState} {p : Port} {kind : TransferKind} {n : Nat} {sck sdi : Bool}
  {sdo : Option Bool} {t : Transfer} {sampled : List Bool} {rx : List Byte} {b o : Bool} {byte : Byte}

theorem PortUnit.inProgress_carries (same : ∀ k, t.kind = some k → k = kind) :
    (u.inProgress sck sdi sdo t sampled rx).carries kind = true :=
  PortUnit.carries_of_transfer rfl same

theorem PortUnit.inProgress_fall (running : device ≠ .inReset) : ∃ o left, ShiftsOut t.kind t.bitsOut [o] left ∧
    (u.inProgress true sdi sdo t sampled rx).change device p n (.sck false) =
      u.inProgress false sdi (some o) { t with bitsOut := left } sampled rx := by
  obtain ⟨o, left, shifts, shifted⟩ := PortUnit.shiftOut_shifts (u := u.inProgress false sdi sdo t sampled rx) rfl n
  exact ⟨o, left, shifts, (PortUnit.change_fall running rfl rfl).trans shifted⟩

theorem PortUnit.inProgress_sdi (c : Bool) : (u.inProgress sck b sdo t sampled rx).change device p n (.sdi c) =
    u.inProgress sck c sdo t sampled rx :=
  PortUnit.change_sdi device n c

theorem PortUnit.inProgress_rise_short (running : device ≠ .inReset) (short : t.bitsIn.length < 7) :
    (u.inProgress false b (some o) t sampled rx).change device p n (.sck true) =
      u.inProgress true b (some o) { t with bitsIn := t.bitsIn ++ [b] } (sampled ++ [o]) rx :=
  (PortUnit.change_rise running rfl rfl).trans (PortUnit.sample_of_short short)

theorem PortUnit.sample_of_byte {status : Byte} (whole : t.bitsIn ++ [u.pins.sdi] = bitsOfByte byte) :
    u.sample t status = ({ u with sampled := u.sampled ++ u.sdo.toList } : PortUnit).takeByte t byte status := by
  have complete : bytesOfBits (t.bitsIn ++ [u.pins.sdi]) = [byte] := by
    rw [whole, ← bytesOfBits_bitsOfBytes [byte] [] (by decide)]
    simp [bitsOfBytes]
  rw [PortUnit.sample]
  dsimp only
  rw [complete]

theorem PortUnit.inProgress_rise_whole (running : device ≠ .inReset) (whole : t.bitsIn ++ [b] = bitsOfByte byte) :
    (u.inProgress false b (some o) t sampled rx).change device p n (.sck true) =
      (u.inProgress true b (some o) t (sampled ++ [o]) rx).takeByte t byte (statusByte device u) :=
  (PortUnit.change_rise running rfl rfl).trans (PortUnit.sample_of_byte whole)

/-- A byte that is complete leaves no bits of it. -/
theorem PortUnit.inProgress_takeByte (t₀ : Transfer) (status : Byte) :
    (u.inProgress sck sdi sdo t₀ sampled rx).takeByte t byte status =
      (u.inProgress sck sdi sdo { t with bitsIn := [] } sampled rx).takeByte { t with bitsIn := [] } byte status := by
  obtain ⟨mode, kind, bitsIn, bitsOut⟩ := t
  match kind with
  | none => rfl
  | some .send => rw [PortUnit.takeByte_send rfl, PortUnit.takeByte_send rfl]; rfl
  | some .poll => rfl
  | some .fetch => rfl
  | some .unrecognised => rfl

/-- The clocks of the rest of a byte: SDO shows as many bits, and the byte is taken (R137). -/
theorem PortUnit.changes_byte (running : device ≠ .inReset) (bits : List Bool) (more : bits ≠ [])
    (same : ∀ k, t.kind = some k → k = kind) (whole : t.bitsIn ++ bits = bitsOfByte byte) :
    ∃ shown left sdi' sdo', ShiftsOut t.kind t.bitsOut shown left ∧ shown.length = bits.length ∧
      (u.inProgress true sdi sdo t sampled rx).changes device p kind n (bits.flatMap clockOf) =
        (u.inProgress true sdi' sdo' { t with bitsIn := [], bitsOut := left } (sampled ++ shown) rx).takeByte
          { t with bitsIn := [], bitsOut := left } byte (statusByte device u) := by
  induction bits generalizing n sdi sdo t sampled with
  | nil => exact absurd rfl more
  | cons b rest ih =>
    obtain ⟨o, mid, first, falls⟩ := PortUnit.inProgress_fall (u := u) (p := p) (n := n) (sdi := sdi) (sdo := sdo)
      (t := t) (sampled := sampled) (rx := rx) running
    have carried : ∀ sck sdi sdo, (u.inProgress sck sdi sdo { t with bitsOut := mid } sampled rx).carries kind = true :=
      fun _ _ _ => PortUnit.inProgress_carries same
    rw [List.flatMap_cons, clockOf, List.cons_append, List.cons_append, List.cons_append, List.nil_append,
      PortUnit.changes_cons (PortUnit.inProgress_carries same) falls,
      PortUnit.changes_cons (carried _ _ _) (PortUnit.inProgress_sdi b)]
    cases rest with
    | nil =>
      refine ⟨[o], mid, b, some o, first, rfl, ?_⟩
      rw [PortUnit.changes_cons (carried _ _ _) (PortUnit.inProgress_rise_whole running whole),
        List.flatMap_nil, PortUnit.changes]
      exact PortUnit.inProgress_takeByte _ _
    | cons c rest =>
      have short : t.bitsIn.length < 7 := by
        have eight : (t.bitsIn ++ b :: c :: rest).length = 8 := congrArg List.length whole
        simp only [List.length_append, List.length_cons] at eight
        omega
      rw [PortUnit.changes_cons (carried _ _ _) (PortUnit.inProgress_rise_short running short)]
      obtain ⟨shown, left, sdi', sdo', shifts, length, taken⟩ := ih (n := n + 1 + 1 + 1) (sdi := b) (sdo := some o)
        (t := { t with bitsIn := t.bitsIn ++ [b], bitsOut := mid }) (sampled := sampled ++ [o]) (by simp) same
        (by rw [List.append_assoc]; exact whole)
      exact ⟨o :: shown, left, sdi', sdo', first.trans shifts, congrArg (· + 1) length,
        taken.trans (by rw [List.append_assoc]; rfl)⟩

/-! ### The kind byte -/

/-- What a transaction has become at the fall of SCK that follows the fall of CSn, or at the fall of CSn
itself: the first bit of the status byte is on SDO, in either mode. -/
theorem PortUnit.changes_begin (running : device ≠ .inReset) (high : u.pins.csn = true) (idle : u.transfer = none)
    (mode3 : Bool) (pins : List PinChange) :
    ∃ mode, u.changes device p kind n (.sck mode3 :: .csn false :: .sck false :: pins) =
      (u.inProgress false u.pins.sdi (some ((statusByte device u).getLsbD 7))
        ⟨mode, none, [], (bitsOfByte (statusByte device u)).tail⟩ [] u.rx).changes device p kind (n + 3) pins := by
  have unnamed : ∀ {mode out k}, (⟨mode, none, [], out⟩ : Transfer).kind = some k → k = kind := fun h => nomatch h
  rw [PortUnit.changes_cons (PortUnit.carries_of_idle idle)
    (PortUnit.change_sck_of_idle running idle mode3 (Or.inr high))]
  cases mode3 with
  | false =>
    refine ⟨.mode0, ?_⟩
    rw [PortUnit.changes_cons (u := { u with pins := { u.pins with sck := false } }) (PortUnit.carries_of_idle idle)
      (PortUnit.change_fall_csn_mode0 running high rfl), PortUnit.changes_cons
      (PortUnit.carries_of_transfer rfl fun k => unnamed) (PortUnit.change_level p rfl)]
    rfl
  | true =>
    refine ⟨.mode3, ?_⟩
    rw [PortUnit.changes_cons (u := { u with pins := { u.pins with sck := true } }) (PortUnit.carries_of_idle idle)
      (PortUnit.change_fall_csn_mode3 running high rfl), PortUnit.changes_cons
      (PortUnit.carries_of_transfer rfl fun k => unnamed)
      ((PortUnit.change_fall running rfl rfl).trans (PortUnit.shiftOut_of_bit rfl))]
    rfl

/-- The bits of a byte, the first before the others. -/
theorem bitsOfByte_eq_cons (b : Byte) : bitsOfByte b = b.getLsbD 7 :: (bitsOfByte b).tail := rfl

/-- The kind byte shows the status byte, and chooses what the transaction shifts out next (R137, R138). -/
theorem PortUnit.changes_kindByte (running : device ≠ .inReset) (high : u.pins.csn = true) (idle : u.transfer = none)
    (mode3 : Bool) (named : kindOfByte byte = kind) (pins : List PinChange) :
    ∃ mode sdi sdo m, u.changes device p kind n
        (.sck mode3 :: .csn false :: ((bitsOfByte byte).flatMap clockOf ++ pins)) =
      (u.inProgress true sdi sdo
        ⟨mode, some kind, [], u.bitsAfterKind (statusByte device u) kind⟩ (bitsOfByte (statusByte device u))
        (if kind = .send then [] else u.rx)).changes device p kind m pins := by
  obtain ⟨mode, begins⟩ := PortUnit.changes_begin (p := p) (kind := kind) (n := n) running high idle mode3
    ([.sdi (byte.getLsbD 7), .sck true] ++ ((bitsOfByte byte).tail.flatMap clockOf ++ pins))
  have unnamed : ∀ bits out k, (⟨mode, none, bits, out⟩ : Transfer).kind = some k → k = kind :=
    (fun _ _ _ h => nomatch h)
  obtain ⟨shown, left, sdi, sdo, shifts, length, taken⟩ := PortUnit.changes_byte (u := u) (p := p) (n := n + 3 + 1 + 1)
    (sdi := byte.getLsbD 7) (sdo := some ((statusByte device u).getLsbD 7))
    (t := ⟨mode, none, [byte.getLsbD 7], (bitsOfByte (statusByte device u)).tail⟩)
    (sampled := [(statusByte device u).getLsbD 7]) (rx := u.rx) running (bitsOfByte byte).tail (by simp [bitsOfByte])
    (unnamed _ _) (bitsOfByte_eq_cons byte).symm
  refine ⟨mode, sdi, sdo, n + 3 + 1 + 1 + ((bitsOfByte byte).tail.flatMap clockOf).length, ?_⟩
  refine Eq.trans ?_ (begins.trans ?_)
  · rw [bitsOfByte_eq_cons byte]; rfl
  rw [List.cons_append, List.cons_append, List.nil_append,
    PortUnit.changes_cons (PortUnit.inProgress_carries (unnamed _ _)) (PortUnit.inProgress_sdi _),
    PortUnit.changes_cons (PortUnit.inProgress_carries (unnamed _ _))
      (PortUnit.inProgress_rise_short running (by simp)),
    PortUnit.changes_append]
  refine (congrArg (fun v => PortUnit.changes device p kind _ v pins)
    (taken.trans (PortUnit.takeByte_kind rfl))).trans ?_
  rw [shifts.eq_of_length (length.trans rfl), named]
  rfl

/-! ### The bytes behind the kind byte -/

/-- The receive buffer behind more bytes of a transaction: a SEND's takes the first sixteen (R139). -/
def TransferKind.buffer (kind : TransferKind) (rx bytes : List Byte) : List Byte :=
  if kind = .send then (rx ++ bytes).take 16 else rx

theorem TransferKind.buffer_nil (fits : kind = .send → rx.length ≤ 16) : kind.buffer rx [] = rx := by
  unfold TransferKind.buffer
  split
  · rename_i send
    rw [List.append_nil, List.take_of_length_le (fits send)]
  · rfl

theorem TransferKind.buffer_length (send : kind = .send) (bytes : List Byte) : (kind.buffer rx bytes).length ≤ 16 := by
  rw [TransferKind.buffer, if_pos send]
  exact List.length_take_le _ _

theorem take_take_append (l m : List Byte) (k : Nat) : (l.take k ++ m).take k = (l ++ m).take k := by
  rw [List.take_append, List.take_append, List.take_take, Nat.min_self, List.length_take]
  congr 2
  omega

theorem TransferKind.buffer_cons (bytes : List Byte) :
    kind.buffer (kind.buffer rx [byte]) bytes = kind.buffer rx (byte :: bytes) := by
  unfold TransferKind.buffer
  split
  · rw [take_take_append, ← List.append_cons]
  · rfl

/-- SEND and POLL begin the status byte again (R139, R140, R152). -/
theorem PortUnit.takeByte_restarts (restarts : kind = .send ∨ kind = .poll) (named : t.kind = some kind)
    (fits : kind = .send → u.rx.length ≤ 16) (status : Byte) : u.takeByte t byte status = { u with
      rx := kind.buffer u.rx [byte]
      transfer := some { t with kind := some kind, bitsIn := [], bitsOut := bitsOfByte status } } := by
  rcases restarts with rfl | rfl
  · rw [PortUnit.takeByte_send named, TransferKind.buffer, if_pos rfl]
    congr 1
    split
    · rename_i room
      rw [List.take_of_length_le (by rw [List.length_append]; exact room)]
    · rename_i full
      rw [List.take_append_of_le_length (Nat.le_of_not_lt full), List.take_of_length_le (fits rfl)]
  · rw [PortUnit.takeByte_poll named]
    rfl

/-- The bytes of a SEND or a POLL: the status byte for each (R139, R140). -/
theorem PortUnit.changes_bytes_restarts (running : device ≠ .inReset) (restarts : kind = .send ∨ kind = .poll)
    (mode : SpiMode) (bytes : List Byte) (fits : kind = .send → rx.length ≤ 16) : ∃ sdi' sdo',
    (u.inProgress true sdi sdo ⟨mode, some kind, [], bitsOfByte (statusByte device u)⟩ sampled rx).changes
        device p kind n ((bitsOfBytes bytes).flatMap clockOf) =
      u.inProgress true sdi' sdo' ⟨mode, some kind, [], bitsOfByte (statusByte device u)⟩
        (sampled ++ (List.replicate bytes.length (bitsOfByte (statusByte device u))).flatten)
        (kind.buffer rx bytes) := by
  induction bytes generalizing n sdi sdo sampled rx with
  | nil =>
    refine ⟨sdi, sdo, ?_⟩
    rw [TransferKind.buffer_nil fits, List.length_nil, List.replicate_zero, List.flatten_nil, List.append_nil]
    rfl
  | cons b bytes ih =>
    obtain ⟨shown, left, sdi₁, sdo₁, shifts, length, taken⟩ := PortUnit.changes_byte (u := u) (p := p) (n := n)
      (kind := kind) (sdi := sdi) (sdo := sdo) (t := ⟨mode, some kind, [], bitsOfByte (statusByte device u)⟩)
      (sampled := sampled) (rx := rx) running (bitsOfByte b) (by simp [bitsOfByte])
      (fun k named => (Option.some.inj named).symm) rfl
    have status := shifts.eq_of_length (length.trans rfl)
    obtain ⟨sdi₂, sdo₂, rest⟩ := ih (n := n + ((bitsOfByte b).flatMap clockOf).length) (sdi := sdi₁) (sdo := sdo₁)
      (sampled := sampled ++ shown) (fun send => TransferKind.buffer_length send [b])
    refine ⟨sdi₂, sdo₂, ?_⟩
    rw [bitsOfBytes, List.flatMap_cons, List.flatMap_append, PortUnit.changes_append, taken,
      PortUnit.takeByte_restarts restarts rfl fits]
    refine rest.trans ?_
    rw [TransferKind.buffer_cons, status, List.append_assoc]
    rfl

/-- The bytes of a FETCH or an unrecognised transaction: what waits is shifted out (R138, R149). -/
theorem PortUnit.changes_bytes_keeps (running : device ≠ .inReset) (keeps : kind = .fetch ∨ kind = .unrecognised)
    (mode : SpiMode) (out : List Bool) (bytes : List Byte) : ∃ shown left sdi' sdo',
    ShiftsOut (some kind) out shown left ∧ shown.length = 8 * bytes.length ∧
    (u.inProgress true sdi sdo ⟨mode, some kind, [], out⟩ sampled rx).changes device p kind n
        ((bitsOfBytes bytes).flatMap clockOf) =
      u.inProgress true sdi' sdo' ⟨mode, some kind, [], left⟩ (sampled ++ shown) rx := by
  induction bytes generalizing n sdi sdo sampled out with
  | nil => exact ⟨[], out, sdi, sdo, .done out, rfl, by rw [List.append_nil]; rfl⟩
  | cons b bytes ih =>
    obtain ⟨shown₁, mid, sdi₁, sdo₁, first, length₁, taken⟩ := PortUnit.changes_byte (u := u) (p := p) (n := n)
      (kind := kind) (sdi := sdi) (sdo := sdo) (t := ⟨mode, some kind, [], out⟩)
      (sampled := sampled) (rx := rx) running (bitsOfByte b) (by simp [bitsOfByte])
      (fun k named => (Option.some.inj named).symm) rfl
    obtain ⟨shown₂, left, sdi₂, sdo₂, second, length₂, rest⟩ := ih (n := n + ((bitsOfByte b).flatMap clockOf).length)
      (sdi := sdi₁) (sdo := sdo₁) (sampled := sampled ++ shown₁) mid
    refine ⟨shown₁ ++ shown₂, left, sdi₂, sdo₂, first.trans second, ?_, ?_⟩
    · rw [List.length_append, length₁, length₂, List.length_cons, show (bitsOfByte b).length = 8 from rfl]
      omega
    · rw [bitsOfBytes, List.flatMap_cons, List.flatMap_append, PortUnit.changes_append, taken,
        PortUnit.takeByte_keeps keeps rfl, ← List.append_assoc]
      exact rest

/-! ### The rise of CSn -/

/-- The port after a whole transaction, but for what its kind leaves. -/
def PortUnit.finished (u : PortUnit) (sdi : Bool) (sampled : List Bool) (rx : List Byte) : PortUnit :=
  { u with pins := ⟨true, true, sdi⟩, transfer := none, sdo := none, sampled := sampled, rx := rx }

theorem PortUnit.changes_end (running : device ≠ .inReset) (named : t.kind = some kind) :
    (u.inProgress true sdi sdo t sampled rx).changes device p kind n [.csn true] =
      if device = .ready then (u.finished sdi sampled rx).conclude p (some kind) else u.finished sdi sampled rx := by
  rw [PortUnit.changes_cons (PortUnit.inProgress_carries fun k named' => Option.some.inj (named'.symm.trans named))
    (PortUnit.change_rise_csn rfl running rfl), named]
  rfl

/-- A conclusion leaves the pins. -/
theorem PortUnit.conclude_pins (named : Option TransferKind) : (u.conclude p named).pins = u.pins := by
  unfold PortUnit.conclude
  split
  · exact (u.decide_link _).2.2.2
  all_goals rfl

end

/-! ### The whole row -/

section
variable {u : PortUnit} {device : DeviceState} {p : Port} {kind : TransferKind} {n : Nat} {byte : Byte}

/-- The pin changes of a whole transaction, behind the one that chooses its mode. -/
def wholeRow (bytes : List Byte) : List PinChange :=
  [.csn false] ++ (bitsOfBytes bytes).flatMap clockOf ++ [.csn true]

theorem PortUnit.changes_wholeRow (running : device ≠ .inReset) (high : u.pins.csn = true) (idle : u.transfer = none)
    (mode3 : Bool) (named : kindOfByte byte = kind) (bytes : List Byte) :
    ∃ mode sdi sdo m, u.changes device p kind n (.sck mode3 :: wholeRow (byte :: bytes)) =
      (u.inProgress true sdi sdo
        ⟨mode, some kind, [], u.bitsAfterKind (statusByte device u) kind⟩ (bitsOfByte (statusByte device u))
        (if kind = .send then [] else u.rx)).changes device p kind m
          ((bitsOfBytes bytes).flatMap clockOf ++ [.csn true]) := by
  obtain ⟨mode, sdi, sdo, m, begun⟩ := PortUnit.changes_kindByte (p := p) (n := n) running high idle mode3 named
    ((bitsOfBytes bytes).flatMap clockOf ++ [.csn true])
  refine ⟨mode, sdi, sdo, m, Eq.trans ?_ begun⟩
  rw [wholeRow, bitsOfBytes, List.flatMap_cons, List.flatMap_append, List.append_assoc, List.append_assoc]
  rfl

/-- A whole SEND or POLL (R139, R140). -/
theorem PortUnit.changes_whole_restarts (running : device ≠ .inReset) (high : u.pins.csn = true)
    (idle : u.transfer = none) (mode3 : Bool) (named : kindOfByte byte = kind)
    (restarts : kind = .send ∨ kind = .poll) (bytes : List Byte) : ∃ sdi,
    let v := u.finished sdi ((List.replicate (bytes.length + 1) (bitsOfByte (statusByte device u))).flatten)
      (if kind = .send then bytes.take 16 else u.rx)
    u.changes device p kind n (.sck mode3 :: wholeRow (byte :: bytes)) =
      if device = .ready then v.conclude p (some kind) else v := by
  obtain ⟨mode, sdi, sdo, m, begun⟩ := PortUnit.changes_wholeRow (p := p) (n := n) running high idle mode3 named bytes
  have again : u.bitsAfterKind (statusByte device u) kind = bitsOfByte (statusByte device u) := by
    rcases restarts with rfl | rfl <;> rfl
  have empty : kind = .send → (if kind = .send then [] else u.rx).length ≤ 16 := fun send => by
    rw [if_pos send]
    exact Nat.zero_le 16
  have buffer : kind.buffer (if kind = .send then [] else u.rx) bytes =
      if kind = .send then bytes.take 16 else u.rx := by
    unfold TransferKind.buffer
    split <;> rfl
  obtain ⟨sdi', sdo', taken⟩ := PortUnit.changes_bytes_restarts (u := u) (p := p) (n := m) (sdi := sdi) (sdo := sdo)
    (sampled := bitsOfByte (statusByte device u)) running restarts mode bytes empty
  refine ⟨sdi', ?_⟩
  rw [begun, again, PortUnit.changes_append, taken, PortUnit.changes_end running rfl, buffer]
  rfl

/-- A whole FETCH or unrecognised transaction (R138, R149). -/
theorem PortUnit.changes_whole_keeps (running : device ≠ .inReset) (high : u.pins.csn = true)
    (idle : u.transfer = none) (mode3 : Bool) (named : kindOfByte byte = kind)
    (keeps : kind = .fetch ∨ kind = .unrecognised) (bytes : List Byte) : ∃ sdi shown left,
    ShiftsOut (some kind) (u.bitsAfterKind (statusByte device u) kind) shown left ∧ shown.length = 8 * bytes.length ∧
    let v := u.finished sdi (bitsOfByte (statusByte device u) ++ shown) u.rx
    u.changes device p kind n (.sck mode3 :: wholeRow (byte :: bytes)) =
      if device = .ready then v.conclude p (some kind) else v := by
  obtain ⟨mode, sdi, sdo, m, begun⟩ := PortUnit.changes_wholeRow (p := p) (n := n) running high idle mode3 named bytes
  have kept : (if kind = .send then [] else u.rx) = u.rx := if_neg (by rcases keeps with rfl | rfl <;> decide)
  obtain ⟨shown, left, sdi', sdo', shifts, length, taken⟩ := PortUnit.changes_bytes_keeps (u := u) (p := p) (n := m)
    (sdi := sdi) (sdo := sdo) (sampled := bitsOfByte (statusByte device u)) (rx := u.rx) running keeps mode
    (u.bitsAfterKind (statusByte device u) kind) bytes
  refine ⟨sdi', shown, left, shifts, length, ?_⟩
  rw [begun, kept, PortUnit.changes_append, taken, PortUnit.changes_end running rfl]

end

/-- Settles O36: the clocks of each byte in turn, from the fall of CSn to its rise. -/
theorem wholeTransactions : Obligations.WholeTransactions := by
  unfold Obligations.WholeTransactions
  intro s p mode3 bytes u pins status m ended running high idle
  have port : ∀ kind byte, (s.changePins kind p (.sck mode3 :: pins byte)).port p =
      u.changes s.device p kind s.free (.sck mode3 :: wholeRow (byte :: bytes)) := fun kind _ =>
    State.port_changePins kind p s _
  have concluded : ∀ {t : State} {kind sdi sampled rx},
      (t.port p = if s.device = .ready then (u.finished sdi sampled rx).conclude p (some kind)
        else u.finished sdi sampled rx) →
      t.port p = if s.device = .ready then ({ ended t sampled with rx := rx } : PortUnit).conclude p (some kind)
        else { ended t sampled with rx := rx } := by
    intro t kind sdi sampled rx ends
    have pinsAfter : (t.port p).pins = ⟨true, true, sdi⟩ := by
      rw [ends]
      split
      · exact PortUnit.conclude_pins _
      · rfl
    have same : { ended t sampled with rx := rx } = u.finished sdi sampled rx := by
      simp only [ended, pinsAfter]
      rfl
    exact ends.trans
      (congrArg (fun v : PortUnit => if s.device = .ready then v.conclude p (some kind) else v) same.symm)
  refine ⟨⟨_, exec_fetch p s _ _, ?fetch⟩, ⟨_, exec_poll p s _ _, ?poll⟩, ⟨_, exec_send p s _ _, ?send⟩,
    fun kind notSend notFetch notPoll => ?other⟩
  case fetch =>
    obtain ⟨sdi, shown, left, shifts, length, after⟩ := PortUnit.changes_whole_keeps (p := p) (n := s.free)
      (byte := 0xA2#8) (kind := .fetch) running high idle mode3 rfl (Or.inl rfl) bytes
    have ends := (concluded ((port .fetch 0xA2#8).trans after)).trans (ite_self _)
    have shows : ∀ frame, u.slot.fetchFrame = frame → shown = (bitsOfBytes frame ++ List.replicate m true).take m := by
      rintro frame rfl
      have taken := shifts.eq_take (m := m) length.le
      rw [length] at taken
      exact taken
    intro shifted
    have becomes : ∀ frame, u.slot.fetchFrame = frame → shifted frame := fun frame is =>
      ends.trans (by rw [shows frame is]; rfl)
    exact ⟨fun empty => becomes _ (by rw [empty]; rfl), fun tag c pending => becomes _ (by rw [pending]; rfl),
      fun r filled => becomes _ (by rw [filled]; rfl)⟩
  case poll =>
    obtain ⟨sdi, after⟩ := PortUnit.changes_whole_restarts (p := p) (n := s.free)
      (byte := 0xA4#8) (kind := .poll) running high idle mode3 rfl (Or.inr rfl) bytes
    exact concluded ((port .poll 0xA4#8).trans after)
  case send =>
    obtain ⟨sdi, after⟩ := PortUnit.changes_whole_restarts (p := p) (n := s.free)
      (byte := 0xA1#8) (kind := .send) running high idle mode3 rfl (Or.inl rfl) bytes
    exact concluded ((port .send 0xA1#8).trans after)
  case other =>
    obtain ⟨sdi, shown, left, shifts, length, after⟩ := PortUnit.changes_whole_keeps (p := p) (n := s.free)
      (byte := kind) (kind := .unrecognised) running high idle mode3 (kindOfByte_of_other notSend notFetch notPoll)
      (Or.inr rfl) bytes
    exact ⟨_, shown, exec_unrecognisedKindByte p s _ _, length, concluded ((port .unrecognised kind).trans after)⟩

end Sys2Proof.Machine
end

section
/-! The bytes of the link: the layouts of replies and of command frames, and a command read back from its frame. -/

namespace Sys2Proof

/-! ### Bytes of wider fields -/

theorem wordBytes_eq_shifts (w : Word) : wordBytes w =
    [(w >>> 24).setWidth 8, (w >>> 16).setWidth 8, (w >>> 8).setWidth 8, w.setWidth 8] := by
  have part : ∀ k, w.extractLsb' k 8 = (w >>> k).setWidth 8 := fun k => by
    apply BitVec.eq_of_toNat_eq
    simp
  rw [wordBytes, part, part, part, part, BitVec.ushiftRight_zero]

theorem halfBytes_eq_shifts (h : Half) : halfBytes h = [(h >>> 8).setWidth 8, h.setWidth 8] := by
  have part : ∀ k, h.extractLsb' k 8 = (h >>> k).setWidth 8 := fun k => by
    apply BitVec.eq_of_toNat_eq
    simp
  rw [halfBytes, part, part, BitVec.ushiftRight_zero]

/-! ### Frames -/

theorem crc8Shift_eq (c : Byte) : crc8Shift c = if c.getLsbD 7 then (c <<< 1) ^^^ 0x07#8 else c <<< 1 := by
  rw [crc8Shift, BitVec.msb_eq_getLsbD_last]

/-- One byte more into the frame CRC (R191). -/
theorem crc8_append (l : List Byte) (b : Byte) : crc8 (l ++ [b]) = Nat.repeat
    (fun c : Byte => if c.getLsbD 7 then (c <<< 1) ^^^ 0x07#8 else c <<< 1) 8 (crc8 l ^^^ b) := by
  rw [crc8, crc8, List.foldl_append]
  simp only [List.foldl_cons, List.foldl_nil, crc8Byte, funext crc8Shift_eq]

theorem tagByte_eq (tag : BitVec 4) : (0x0#4 ++ tag : Byte) = tag.setWidth 8 := by
  revert tag; decide

theorem tag_of_tagByte (tag : BitVec 4) :
    (0x0#4 ++ tag : Byte).extractLsb' 0 4 = tag ∧ (0x0#4 ++ tag : Byte).extractLsb' 4 4 = 0#4 := by
  revert tag; decide

theorem codeOf_of_wireOf {c : Instr} {p : Port} {code : Byte} {params : List Byte}
    (spells : wireOf c = some (p, code, params)) : codeOf c = code := by
  rw [codeOf, spells]

/-! ### A command read back -/

section
variable {c : Instr} {p : Port} {code : Byte} {params : List Byte} (tag : BitVec 4)

theorem encodeFrame_of_wireOf (spells : wireOf c = some (p, code, params)) :
    encodeFrame tag c = some (frameOf tag code params) := by
  rw [encodeFrame, spells]

/-- No command has more than twelve parameter bytes (11.2). -/
theorem params_length_le (spells : wireOf c = some (p, code, params)) : params.length ≤ 12 := by
  have fixed := (Laws.Wire.statement_of_every_row c p code params spells).2
  have bound : ∀ {m}, lengthOfCode code = some m → m ≤ 15 := by
    intro m named
    unfold lengthOfCode at named
    split at named <;> cases named <;> decide
  have := bound fixed
  omega

/-- The bytes of a command frame, and its parts whatever bytes follow it. -/
theorem framed_frameOf (short : params.length ≤ 12) (extra : List Byte) :
    Framed (frameOf tag code params ++ extra) ∧
      partsOf (frameOf tag code params ++ extra) = ⟨params.length + 3, tag, code, params⟩ := by
  have counts : (BitVec.ofNat 8 (params.length + 3) : Byte).toNat = params.length + 3 := by
    rw [BitVec.toNat_ofNat]
    omega
  have bytes : frameOf tag code params ++ extra = BitVec.ofNat 8 (params.length + 3) :: (0x0#4 ++ tag : Byte) ::
      code :: (params ++ ([crc8 (BitVec.ofNat 8 (params.length + 3) :: (0x0#4 ++ tag : Byte) :: code :: params)] ++
        extra)) := by
    simp [frameOf]
  obtain ⟨low, high⟩ := tag_of_tagByte tag
  rw [bytes]
  constructor
  · rw [framed_cons_iff counts short (by simp)]
    refine ⟨?_, high⟩
    rw [List.take_left]
    simp
  · rw [partsOf_cons counts, low, List.take_left]

theorem readFrame_frameOf (spells : wireOf c = some (p, code, params)) (extra : List Byte) :
    readFrame p (frameOf tag code params ++ extra) = .command tag c := by
  obtain ⟨framed, parts⟩ := framed_frameOf (code := code) tag (params_length_le spells) extra
  have fixed := (Laws.Wire.statement_of_every_row c p code params spells).2
  have passes : readFrame p (frameOf tag code params ++ extra) ≠ .fault := by
    rw [ne_eq, readFrame_eq_fault_iff, parts]
    rintro (broken | ⟨m, other, ne⟩)
    · exact broken framed
    · exact ne (Option.some.inj (other.symm.trans fixed))
  rw [readFrame_eq_command_iff, parts]
  exact ⟨passes, rfl, spells⟩

end

/-- Settles O39: the rows of the command table by their bytes, and the parts of a frame at their places. -/
theorem readFrameOfEncodeFrame : Obligations.ReadFrameOfEncodeFrame := by
  unfold Obligations.ReadFrameOfEncodeFrame
  intro word half
  refine ⟨fun p key token value lease wait a b => ?rows, fun p tag c code params spells => ?reads⟩
  case rows =>
    have word_eq : ∀ w, wordBytes w = word w := wordBytes_eq_shifts
    have half_eq : ∀ h, halfBytes h = half h := halfBytes_eq_shifts
    simp only [wireOf, word_eq, half_eq, and_self]
  case reads =>
    refine ⟨encodeFrame_of_wireOf tag spells, fun frame extra encodes => ?_⟩
    obtain rfl := Option.some.inj ((encodeFrame_of_wireOf tag spells).symm.trans encodes)
    exact readFrame_frameOf tag spells extra

namespace Machine

/-! ### The codes inside a field -/

theorem channelByte_some (ch : Channel) (c : ChannelState) :
    channelByte (some (ch, c)) = BitVec.ofNat 8 (16 * ch.val) ||| (0#4 ++ c.code : Byte) := by
  have joined : ∀ (ch : Channel) (k : BitVec 4),
      (BitVec.ofNat 4 ch.val ++ k : Byte) = BitVec.ofNat 8 (16 * ch.val) ||| (0#4 ++ k : Byte) := by decide
  exact joined ch c.code

theorem StatusView.flags_eq (v : StatusView) : v.flags =
    bit v.supplyLow ||| bit v.trimDefault <<< 1 ||| bit v.defaulted <<< 2 ||| bit v.configPending <<< 3 := by
  have joined : ∀ a b c d : Bool, (0#4 ++ BitVec.ofBool d ++ BitVec.ofBool c ++ BitVec.ofBool b ++ BitVec.ofBool a :
      Byte) = bit a ||| bit b <<< 1 ||| bit c <<< 2 ||| bit d <<< 3 := by decide
  exact joined _ _ _ _

theorem toList_of_four {α : Type} (v : Vector α 4) : v.toList = [v[0], v[1], v[2], v[3]] := by
  apply List.ext_getElem
  · simp
  · intro i first second
    simp only [List.length_cons, List.length_nil] at second
    match i, second with
    | 0, _ => simp
    | 1, _ => simp
    | 2, _ => simp
    | 3, _ => simp

/-- Settles O38: the codes case by case, the two CRC rules, and the field bytes of each reply. -/
theorem replyLayouts : Obligations.ReplyLayouts := by
  unfold Obligations.ReplyLayouts
  intro word half byte flag mode slot channel staging side status
  have word_eq : ∀ w, wordBytes w = word w := wordBytes_eq_shifts
  have half_eq : ∀ h, halfBytes h = half h := halfBytes_eq_shifts
  have mode_eq : ∀ m, Mode.code m = mode m := fun m => by cases m <;> rfl
  have slot_eq : ∀ sl, Slot.code sl = slot sl := fun sl => by cases sl <;> rfl
  have channel_eq : ∀ c : ChannelState, (0#4 ++ c.code : Byte) = channel c := fun c => by
    cases c with
    | guard deadline => exact (by decide : (0#4 ++ 4#4 : Byte) = 4#8)
    | _ => rfl
  have staging_eq : ∀ c, StagingState.code c = staging c := fun c => by cases c <;> rfl
  have side_eq : ∀ c, Side.code c = side c := fun c => by cases c <;> rfl
  have status_eq : ∀ st, Status.code st = status st := fun st => by cases st <;> rfl
  have flag_eq : ∀ b, bit b = flag b := fun _ => rfl
  refine ⟨fun b => rfl, ?bits, fun l => rfl, fun c p code params => codeOf_of_wireOf, ?frames, rfl, crc8_append,
    ?frameOf, ?frame, rfl, ?session, ?grant, fun k => rfl, ?deadline, ?holder, ?notice, ?remaining, ?record, ?mySlot,
    ?now, ?status, rfl, ?ident, fun count => rfl, ?target, ?badItem, ?field, ?staging⟩
  case bits =>
    decide
  case frames => exact ⟨rfl, fun tag c => rfl, fun r => rfl⟩
  case frameOf =>
    intro tag code rest
    rw [frameOf, tagByte_eq]
    rfl
  case frame =>
    intro r
    have counted : ([r.status.code, bit r.replayed] ++ r.fields.bytes).length + 3 = r.fields.bytes.length + 5 := by
      simp
    rw [Reply.frame, frameOf, counted, tagByte_eq, status_eq, flag_eq]
    rfl
  case session => exact fun n floor => by rw [Fields.bytes, half_eq, word_eq]
  case grant => exact fun token deadline k => by rw [Fields.bytes, word_eq, word_eq]; rfl
  case deadline => exact fun deadline => word_eq deadline
  case holder => exact fun p m => by rw [Fields.bytes, mode_eq]; rfl
  case notice =>
    rintro ⟨seq, kind, key, slot, token, reason, tick⟩ count
    rw [Fields.bytes, Notice.bytes, word_eq, word_eq, word_eq]
    cases kind <;> cases reason <;> rfl
  case remaining => exact fun count sl => by rw [Fields.bytes, slot_eq]; rfl
  case record =>
    intro v
    rw [Fields.bytes, RecordView.bytes, word_eq]
    refine congrArg₂ _ (congrArg₂ _ (congrArg (word v.key ++ ·) ?row) ?holders) ?waiters
    case row =>
      have gate_eq : ∀ ch c, channelByte (some (ch, c)) = byte (16 * ch.val) ||| channel c := fun ch c =>
        (channelByte_some ch c).trans (by rw [channel_eq])
      obtain ⟨key, index, m, holders, waiters, gate⟩ := v
      cases gate with
      | none => cases m <;> rfl
      | some gate =>
        rw [gate_eq]
        cases m <;> rfl
    case holders =>
      refine congrArg (List.flatMap · v.holders) (funext fun h => ?_)
      have low : h.remaining.extractLsb' 0 16 = h.remaining.setWidth 16 :=
        BitVec.eq_of_toNat_eq (by simp)
      rw [mode_eq, half_eq, word_eq, low]
      rfl
    case waiters =>
      refine congrArg (List.flatMap · v.waiters) (funext fun w => ?_)
      rw [mode_eq]
      cases w.state <;> rfl
  case mySlot =>
    intro sl count
    cases sl <;> simp only [Fields.bytes, mySlotBytes, slot_eq, mode_eq, word_eq, half_eq] <;> rfl
  case now => exact word_eq
  case status =>
    rintro ⟨token, G, F, records, chans, low, trim, defaulted, pending, cause, stage⟩
    rw [Fields.bytes, StatusView.bytes, toList_of_four, StatusView.flags_eq, word_eq, word_eq, staging_eq]
    simp only [List.map_cons, List.map_nil, channel_eq, flag_eq]
    cases token <;> rcases cause with _ | (_ | _) <;> rfl
  case ident =>
    intro v
    rw [Fields.bytes, identBytes, half_eq, half_eq, word_eq]
  case target => exact fun t => by rw [Fields.bytes, side_eq, half_eq]; rfl
  case badItem =>
    intro item index
    cases item <;> rfl
  case field => exact fun item index value => by rw [Fields.bytes, word_eq]
  case staging =>
    rintro ⟨stage, owner, target, result, effective, stored, frozen⟩
    rw [Fields.bytes, StagingView.bytes, half_eq, half_eq, half_eq, staging_eq, flag_eq]
    cases owner with
    | none => cases target <;> cases result <;> rfl
    | some p =>
      cases target with
      | none => cases result <;> rfl
      | some t =>
        simp only [Option.elim, side_eq]
        cases result <;> rfl

end Machine
end Sys2Proof
end

section
/-! The image of an open staging, field by field: what STAGE_SET writes, what STAGE_READ reads, and the checks that
come before them (R167 to R169). -/

namespace Sys2Proof.Machine

/-! ### The items -/

theorem itemOfCode_eq_some_iff {item : Byte} {it : Item} : itemOfCode item = some it ↔ item = it.code := by
  constructor
  · intro named
    unfold itemOfCode at named
    split at named
    case h_8 => cases named
    all_goals
      cases named
      rfl
  · rintro rfl
    cases it <;> rfl

theorem itemOfCode_isSome_iff {item : Byte} :
    (itemOfCode item).isSome = true ↔ 1 ≤ item.toNat ∧ item.toNat ≤ 7 := by
  revert item
  decide

/-- How many fields an item names (R168). -/
def Item.count (it : Item) : Nat := if it = .frozen then 1 else 4

/-- The greatest value of a field (R168). -/
def Item.most (it : Item) : Nat :=
  match it with
  | .rights => 15
  | .classMask => 65535
  | .maxLease => 60000
  | .maxWait => 60000
  | .gateKey => 4294967295
  | .guard => 10000
  | .frozen => 1

theorem Item.count_le (it : Item) : it.count ≤ 4 := by
  cases it <;> decide

theorem portOfCode_eq_some_iff {index : Byte} {n : Port} : portOfCode index = some n ↔ index.toNat = n.val := by
  refine ⟨fun named => ?_, portOfCode_of_toNat⟩
  unfold portOfCode at named
  split at named
  · cases named; rfl
  · cases named

/-! ### The fields -/

/-- The value of a field of one index, from the settings of that port and of that channel (R169). -/
def fieldValue (set : PortSettings) (gate : ChannelSettings) (frozen : Bool) : Item → Word
  | .rights => set.rights.bits.setWidth 32
  | .classMask => set.classMask.setWidth 32
  | .maxLease => set.maxLease.setWidth 32
  | .maxWait => set.maxWait.setWidth 32
  | .gateKey => gate.key
  | .guard => gate.guard.setWidth 32
  | .frozen => if frozen then 1#32 else 0#32

section
variable (img : Image) {it : Item} {index : Byte}

theorem Image.readField_of_named {n : Fin 4} (here : index.toNat = n.val) (room : n.val < it.count) :
    img.readField it index = some (fieldValue (img.port n) (img.chan n) img.frozen it) := by
  have place : portOfCode index = some n := portOfCode_of_toNat here
  cases it with
  | frozen =>
    have first : index = 0#8 := BitVec.eq_of_toNat_eq (here.trans (Nat.lt_one_iff.mp room))
    rw [Image.readField, if_pos first]
    rfl
  | _ => rw [Image.readField, place]; rfl

theorem Image.readField_of_unnamed (beyond : it.count ≤ index.toNat) : img.readField it index = none := by
  have place : it ≠ .frozen → portOfCode index = none := fun other => by
    rw [Item.count, if_neg other] at beyond
    exact (portOfCode_eq_none_iff index).mpr beyond
  cases it with
  | frozen =>
    refine if_neg fun first => ?_
    rw [first] at beyond
    exact absurd beyond (by decide)
  | _ => rw [Image.readField, place (by decide)]; rfl

end

/-! ### A field written -/

/-- The settings of a port with one of its fields replaced (R168). -/
def PortSettings.written (set : PortSettings) (it : Item) (value : Word) : PortSettings where
  rights := if it = .rights then rightsOfBits (value.extractLsb' 0 4) else set.rights
  classMask := if it = .classMask then value.extractLsb' 0 16 else set.classMask
  maxLease := if it = .maxLease then value.extractLsb' 0 16 else set.maxLease
  maxWait := if it = .maxWait then value.extractLsb' 0 16 else set.maxWait

/-- The settings of a channel with one of its fields replaced (R168). -/
def ChannelSettings.written (gate : ChannelSettings) (it : Item) (value : Word) : ChannelSettings where
  key := if it = .gateKey then value else gate.key
  guard := if it = .guard then value.extractLsb' 0 16 else gate.guard

/-- An image with one field of another replaced. -/
structure Image.Written (img img' : Image) (it : Item) (n : Fin 4) (value : Word) : Prop where
  port : ∀ m, img'.port m = if m = n then (img.port m).written it value else img.port m
  chan : ∀ m, img'.chan m = if m = n then (img.chan m).written it value else img.chan m
  frozen : img'.frozen = if it = .frozen then value == 1#32 else img.frozen

section
variable {img : Image} {it : Item} {n : Fin 4} {value : Word}

theorem Image.Written.of_setPort (port : it = .rights ∨ it = .classMask ∨ it = .maxLease ∨ it = .maxWait) :
    img.Written (img.setPort n ((img.port n).written it value)) it n value := by
  have other : it ≠ .frozen ∧ it ≠ .gateKey ∧ it ≠ .guard := by
    rcases port with rfl | rfl | rfl | rfl <;> decide
  obtain ⟨notFrozen, notKey, notGuard⟩ := other
  refine ⟨fun m => ?_, fun m => ?_, (if_neg notFrozen).symm⟩
  · rw [Image.port_setPort]
    split
    · rename_i same; rw [same]
    · rfl
  · rw [ChannelSettings.written, if_neg notKey, if_neg notGuard, ite_self]
    rfl

theorem Image.Written.of_setChan (chan : it = .gateKey ∨ it = .guard) :
    img.Written (img.setChan n ((img.chan n).written it value)) it n value := by
  have other : it ≠ .frozen ∧ it ≠ .rights ∧ it ≠ .classMask ∧ it ≠ .maxLease ∧ it ≠ .maxWait := by
    rcases chan with rfl | rfl <;> decide
  obtain ⟨notFrozen, notRights, notMask, notLease, notWait⟩ := other
  refine ⟨fun m => ?_, fun m => ?_, (if_neg notFrozen).symm⟩
  · rw [PortSettings.written, if_neg notRights, if_neg notMask, if_neg notLease, if_neg notWait, ite_self]
    rfl
  · rw [Image.chan_setChan]
    split
    · rename_i same; rw [same]
    · rfl

/-- STAGE_SET with its index and its value in range (R168). -/
theorem Image.setField_of_fits {index : Byte} (here : index.toNat = n.val) (room : n.val < it.count)
    (fits : value.toNat ≤ it.most) : ∃ img', img.setField it index value = some img' ∧ img.Written img' it n value := by
  have place : portOfCode index = some n := portOfCode_of_toNat here
  cases it with
  | rights => exact ⟨_, by rw [Image.setField, place]; exact if_pos fits, .of_setPort (by simp)⟩
  | classMask => exact ⟨_, by rw [Image.setField, place]; exact if_pos fits, .of_setPort (by simp)⟩
  | maxLease => exact ⟨_, by rw [Image.setField, place]; exact if_pos fits, .of_setPort (by simp)⟩
  | maxWait => exact ⟨_, by rw [Image.setField, place]; exact if_pos fits, .of_setPort (by simp)⟩
  | gateKey => exact ⟨_, by rw [Image.setField, place]; rfl, .of_setChan (by simp)⟩
  | guard => exact ⟨_, by rw [Image.setField, place]; exact if_pos fits, .of_setChan (by simp)⟩
  | frozen =>
    have first : index = 0#8 := BitVec.eq_of_toNat_eq (here.trans (Nat.lt_one_iff.mp room))
    refine ⟨_, if_pos ⟨first, fits⟩, fun m => ?_, fun m => ?_, rfl⟩
    · exact (ite_self _).symm
    · exact (ite_self _).symm

/-- STAGE_SET with its index or its value out of range (R168). -/
theorem Image.setField_of_unfit {index : Byte} (unfit : ¬(index.toNat < it.count ∧ value.toNat ≤ it.most)) :
    img.setField it index value = none := by
  have frozen : it = .frozen → ¬(index = 0#8 ∧ value.toNat ≤ 1) := by
    rintro rfl ⟨rfl, fits⟩
    exact unfit ⟨by decide, fits⟩
  cases place : portOfCode index with
  | none =>
    cases it with
    | frozen => exact if_neg (frozen rfl)
    | _ => rw [Image.setField, place]
  | some n =>
    have high : it ≠ .frozen → it.most < value.toNat := fun other => by
      have room := n.isLt
      rw [portOfCode_eq_some_iff] at place
      rw [Item.count, if_neg other] at unfit
      omega
    cases it with
    | frozen => exact if_neg (frozen rfl)
    | gateKey => exact absurd value.isLt (Nat.not_lt.mpr (high (by decide)))
    | _ => rw [Image.setField, place]; exact if_neg (Nat.not_le.mpr (high (by decide)))

theorem setWidth_extractLsb {k : Nat} (fits : value.toNat < 2 ^ k) : (value.extractLsb' 0 k).setWidth 32 = value := by
  apply BitVec.eq_of_toNat_eq
  rw [BitVec.toNat_setWidth, BitVec.extractLsb'_toNat, Nat.shiftRight_zero, Nat.mod_eq_of_lt fits,
    Nat.mod_eq_of_lt value.isLt]

theorem Rights.bits_rightsOfBits (b : BitVec 4) : (rightsOfBits b).bits = b := by
  revert b
  decide

theorem fieldValue_written_same (set : PortSettings) (gate : ChannelSettings) (frozen : Bool)
    (fits : value.toNat ≤ it.most) : fieldValue (set.written it value) (gate.written it value)
      (if it = .frozen then value == 1#32 else frozen) it = value := by
  have narrow : it.most < 2 ^ 16 → (value.extractLsb' 0 16).setWidth 32 = value := fun small =>
    setWidth_extractLsb (Nat.lt_of_le_of_lt fits small)
  cases it with
  | rights =>
    show (rightsOfBits (value.extractLsb' 0 4)).bits.setWidth 32 = value
    rw [Rights.bits_rightsOfBits]
    exact setWidth_extractLsb (Nat.lt_succ_of_le fits)
  | gateKey => rfl
  | frozen =>
    show (if (value == 1#32) = true then 1#32 else 0#32) = value
    split
    · rename_i one; exact (beq_iff_eq.mp one).symm
    · rename_i other
      have zero : value.toNat ≠ 1 := fun one => other (beq_iff_eq.mpr (BitVec.eq_of_toNat_eq one))
      exact BitVec.eq_of_toNat_eq (Nat.lt_one_iff.mp (Nat.lt_of_le_of_ne fits zero)).symm
  | _ => exact narrow (by decide)

theorem fieldValue_written_other {it' : Item} (set : PortSettings) (gate : ChannelSettings) (frozen : Bool)
    (other : it' ≠ it) : fieldValue (set.written it value) (gate.written it value)
      (if it = .frozen then value == 1#32 else frozen) it' = fieldValue set gate frozen it' := by
  cases it' <;> simp only [fieldValue, PortSettings.written, ChannelSettings.written, if_neg other.symm]

/-- A field written is read back. -/
theorem Image.Written.readField_same {img' : Image} (written : img.Written img' it n value) {index : Byte}
    (here : index.toNat = n.val) (room : n.val < it.count) (fits : value.toNat ≤ it.most) :
    img'.readField it index = some value := by
  rw [Image.readField_of_named img' here room, written.port, written.chan, written.frozen, if_pos rfl, if_pos rfl,
    fieldValue_written_same _ _ _ fits]

/-- Every other field is as it was. -/
theorem Image.Written.readField_other {img' : Image} (written : img.Written img' it n value) {index index' : Byte}
    {it' : Item} (here : index.toNat = n.val) (room : n.val < it.count) (other : (it', index') ≠ (it, index)) :
    img'.readField it' index' = img.readField it' index' := by
  by_cases beyond : it'.count ≤ index'.toNat
  · rw [Image.readField_of_unnamed img' beyond, Image.readField_of_unnamed img beyond]
  have named : index'.toNat < it'.count := Nat.lt_of_not_le beyond
  have place : index'.toNat < 4 := Nat.lt_of_lt_of_le named it'.count_le
  obtain ⟨m, at'⟩ : ∃ m : Fin 4, index'.toNat = m.val := ⟨⟨index'.toNat, place⟩, rfl⟩
  rw [Image.readField_of_named img' at' (at' ▸ named), Image.readField_of_named img at' (at' ▸ named), written.port,
    written.chan, written.frozen]
  by_cases same : m = n
  · have item : it' ≠ it := fun item => other (by rw [item, BitVec.eq_of_toNat_eq (at'.trans (same ▸ here.symm))])
    rw [if_pos same, if_pos same, fieldValue_written_other _ _ _ item]
  · rw [if_neg same, if_neg same]
    cases it' with
    | frozen =>
      have notFrozen : it ≠ .frozen := by
        rintro rfl
        rw [at'] at named
        exact same (Fin.ext ((Nat.lt_one_iff.mp named).trans (Nat.lt_one_iff.mp room).symm))
      rw [if_neg notFrozen]
    | _ => rfl

end

/-! ### The open image -/

section
variable {s : State} {p : Port} {c : Instr} {tag : BitVec 4} {body : State → Image → Answer}

/-- A command on the image of an open staging, by the checks of R167 in their order. -/
theorem State.withOpenImage_of_closed (body : Image → Answer) (closed : s.cfg.staging ≠ .opened) :
    s.withOpenImage p body = s.answer .notOpen :=
  if_pos closed

theorem State.withOpenImage_of_other (body : Image → Answer) (opened : s.cfg.staging = .opened)
    (other : s.cfg.owner ≠ some p) : s.withOpenImage p body = s.answer .notOwner := by
  rw [State.withOpenImage, if_neg (not_not.mpr opened), if_pos other]

theorem State.withOpenImage_of_image (body : Image → Answer) (opened : s.cfg.staging = .opened)
    (owner : s.cfg.owner = some p) {img : Image} (image : s.cfg.image = some img) :
    s.withOpenImage p body = body img := by
  rw [State.withOpenImage, if_neg (not_not.mpr opened), if_neg (not_not.mpr owner), image]

variable (row : exec c s = s.runCommand p c fun s => s.whenAttached p fun s => s.withOpenImage p (body s))
  (taken : s.takenTag p c = some tag) (attached : (s.port p).attached = true)
include row taken attached

theorem exec_of_closed (closed : s.cfg.staging ≠ .opened) :
    exec c s = .next (s.replyOnly p tag c .notOpen .none) :=
  exec_of_answer row taken attached (State.withOpenImage_of_closed (s := { s with served := p }) _ closed)

theorem exec_of_other (opened : s.cfg.staging = .opened) (other : s.cfg.owner ≠ some p) :
    exec c s = .next (s.replyOnly p tag c .notOwner .none) :=
  exec_of_answer row taken attached (State.withOpenImage_of_other (s := { s with served := p }) _ opened other)

variable (opened : s.cfg.staging = .opened) (owner : s.cfg.owner = some p) {img : Image}
  (image : s.cfg.image = some img)
include opened owner image

theorem exec_of_image_answer {status : Status} {fields : Fields}
    (answered : body { s with served := p } img = ⟨{ s with served := p }, status, fields⟩) :
    exec c s = .next (s.replyOnly p tag c status fields) :=
  exec_of_answer row taken attached
    ((State.withOpenImage_of_image (s := { s with served := p }) _ opened owner image).trans answered)

theorem exec_of_image {a : Answer} (answered : body { s with served := p } img = a) :
    exec c s = .next (a.st.placeReply p tag c a.status a.fields) := by
  rw [row, State.runCommand_attached taken attached,
    State.withOpenImage_of_image (s := { s with served := p }) _ opened owner image, answered]

end

/-! ### The bodies of the edits -/

section
variable {s : State} {img : Image} {item index : Byte} {value : Word} {it : Item}

theorem stageSetBody_of_none (unset : ∀ it, itemOfCode item = some it → img.setField it index value = none) :
    stageSetBody item index value s img = s.answer .badParam := by
  have none_set : ((itemOfCode item).bind fun it => img.setField it index value) = none :=
    Option.bind_eq_none_iff.mpr unset
  rw [stageSetBody, none_set]

theorem stageSetBody_of_some (named : itemOfCode item = some it) {img' : Image}
    (set : img.setField it index value = some img') : stageSetBody item index value s img =
      ⟨{ s with cfg := { s.cfg with image := some img' } }, .ok, .field item index value⟩ := by
  rw [stageSetBody, named, Option.bind_some, set]

theorem stageReadBody_of_none (unread : ∀ it, itemOfCode item = some it → img.readField it index = none) :
    stageReadBody item index s img = s.answer .badParam := by
  have none_read : ((itemOfCode item).bind fun it => img.readField it index) = none :=
    Option.bind_eq_none_iff.mpr unread
  rw [stageReadBody, none_read]

theorem stageReadBody_of_some (named : itemOfCode item = some it) (read : img.readField it index = some value) :
    stageReadBody item index s img = ⟨s, .ok, .field item index value⟩ := by
  rw [stageReadBody, named, Option.bind_some, read]

end

/-- An item byte and an index byte that name a field, as the ranges of R168 say it. -/
theorem namesField_iff {item index : Byte} :
    (1 ≤ item.toNat ∧ item.toNat ≤ 7 ∧ index.toNat < if item = 7#8 then 1 else 4) ↔
      ∃ it, itemOfCode item = some it ∧ index.toNat < it.count := by
  have counts : ∀ it : Item, (if it.code = 7#8 then 1 else 4) = it.count := fun it => by cases it <;> rfl
  rw [← and_assoc, ← itemOfCode_isSome_iff, Option.isSome_iff_exists]
  constructor
  · rintro ⟨⟨it, named⟩, room⟩
    rw [itemOfCode_eq_some_iff.mp named, counts] at room
    exact ⟨it, named, room⟩
  · rintro ⟨it, named, room⟩
    rw [← counts, ← itemOfCode_eq_some_iff.mp named] at room
    exact ⟨⟨it, named⟩, room⟩

theorem Item.most_eq (it : Item) : it.most =
    if it.code = 1#8 then 15
    else if it.code = 2#8 then 65535
    else if it.code = 3#8 ∨ it.code = 4#8 then 60000
    else if it.code = 5#8 then 4294967295
    else if it.code = 6#8 then 10000
    else 1 := by
  cases it <;> rfl

theorem Rights.bits_setWidth (r : Rights) : r.bits.setWidth 32 =
    (if r.acquire then 1#32 <<< 0 else 0#32) ||| (if r.inspect then 1#32 <<< 1 else 0#32) |||
      (if r.revoke then 1#32 <<< 2 else 0#32) ||| (if r.configure then 1#32 <<< 3 else 0#32) := by
  obtain ⟨acquire, inspect, revoke, configure⟩ := r
  revert acquire inspect revoke configure
  decide

/-- Settles O41: the checks of R167, then the field that the item and the index name, set or read. -/
theorem stageEditOutcome : Obligations.StageEditOutcome := by
  unfold Obligations.StageEditOutcome
  refine ⟨fun item it => ?items, fun img n index here => ?fields, fun img => ?frozen,
    fun s p tag item index value c kind taken attached => ?rows⟩
  case items =>
    rw [itemOfCode_eq_some_iff]
    cases it <;> simp [Item.code]
  case fields =>
    have reads : ∀ it, it ≠ .frozen → img.readField it index =
        some (fieldValue (img.port n) (img.chan n) img.frozen it) := fun it other =>
      img.readField_of_named here (by rw [Item.count, if_neg other]; exact n.isLt)
    intro set bit
    refine ⟨?_, reads _ (by decide), reads _ (by decide), reads _ (by decide), reads _ (by decide),
      reads _ (by decide)⟩
    rw [reads .rights (by decide), fieldValue, Rights.bits_setWidth]
  case frozen => exact img.readField_of_named (n := 0) rfl (by decide)
  case rows =>
    intro refused named inRange
    obtain ⟨body, row⟩ : ∃ body : State → Image → Answer,
        exec c s = s.runCommand p c fun s => s.whenAttached p fun s => s.withOpenImage p (body s) := by
      rcases kind with rfl | rfl | rfl
      · exact ⟨_, exec_stageSet p item index value s⟩
      · exact ⟨_, exec_stageRead p item index s⟩
      · exact ⟨_, exec_stageAbort p s⟩
    refine ⟨exec_of_closed row taken attached, exec_of_other row taken attached,
      fun img opened owner image => ⟨?sets, ?reads, ?aborts⟩⟩
    case sets =>
      rintro rfl
      have setRow := exec_stageSet p item index value s
      have limit : ∀ it, itemOfCode item = some it → (inRange ↔ value.toNat ≤ it.most) := fun it is => by
        rw [Item.most_eq, ← itemOfCode_eq_some_iff.mp is]
      refine ⟨fun unfit => ?refused, fun names fits => ?written⟩
      case refused =>
        refine exec_of_image_answer setRow taken attached opened owner image (stageSetBody_of_none fun it is => ?_)
        exact Image.setField_of_unfit fun ⟨room, fits⟩ =>
          unfit ⟨namesField_iff.mpr ⟨it, is, room⟩, (limit it is).mpr fits⟩
      case written =>
        obtain ⟨it, is, room⟩ := namesField_iff.mp names
        obtain ⟨n, here⟩ : ∃ n : Fin 4, index.toNat = n.val := ⟨⟨index.toNat, room.trans_le it.count_le⟩, rfl⟩
        have most := (limit it is).mp fits
        obtain ⟨img', set, written⟩ := Image.setField_of_fits (img := img) here (here ▸ room) most
        exact ⟨it, img', is, (itemOfCode_eq_some_iff.mp is).symm,
          exec_of_image setRow taken attached opened owner image (stageSetBody_of_some is set),
          written.readField_same here (here ▸ room) most, fun it' index' => written.readField_other here (here ▸ room)⟩
    case reads =>
      rintro rfl
      have readRow := exec_stageRead p item index s
      refine ⟨fun unnamed => ?refused, fun names => ?read⟩
      case refused =>
        refine exec_of_image_answer readRow taken attached opened owner image (stageReadBody_of_none fun it is => ?_)
        exact Image.readField_of_unnamed img
          (Nat.le_of_not_lt fun room => unnamed (namesField_iff.mpr ⟨it, is, room⟩))
      case read =>
        obtain ⟨it, is, room⟩ := namesField_iff.mp names
        obtain ⟨n, here⟩ : ∃ n : Fin 4, index.toNat = n.val := ⟨⟨index.toNat, room.trans_le it.count_le⟩, rfl⟩
        have value_read := Image.readField_of_named img here (here ▸ room)
        exact ⟨it, _, is, value_read, exec_of_image_answer readRow taken attached opened owner image
          (stageReadBody_of_some is value_read)⟩
    case aborts =>
      rintro rfl
      exact exec_of_image (exec_stageAbort p s) taken attached opened owner image rfl

end Sys2Proof.Machine
end

section
/-! COMMIT (R170, R171): the first check that an image fails, and what its acceptance starts. -/

namespace Sys2Proof.Machine

/-! ### The channels that share a key -/

/-- Two channels, the lower one first, with the same non-zero key (R170). -/
def Image.Shares (img : Image) (a b : Channel) : Prop :=
  a < b ∧ (img.chan a).key ≠ 0#32 ∧ (img.chan a).key = (img.chan b).key

/-- The order of the channel pairs (log 15). -/
def PairLE (a b c d : Channel) : Prop := a < c ∨ a = c ∧ b ≤ d

theorem mem_channelPairs_iff {a b : Channel} : (a, b) ∈ channelPairs ↔ a < b := by
  revert a b
  decide

theorem channelPairs_sorted : channelPairs.Pairwise fun x y => x.1 < y.1 ∨ x.1 = y.1 ∧ x.2 ≤ y.2 := by
  decide

section
variable {img : Image} {a b : Channel}

/-- The test by which the pairs are searched. -/
theorem Image.shares_iff : img.Shares a b ↔ (a, b) ∈ channelPairs ∧
    ((img.chan a).key != 0#32 && (img.chan a).key == (img.chan b).key) = true := by
  rw [Image.Shares, mem_channelPairs_iff, Bool.and_eq_true, bne_iff_ne, beq_iff_eq]

theorem Image.sharedKey_eq_none_iff_shares : img.sharedKey = none ↔ ∀ a b, ¬img.Shares a b := by
  rw [Image.sharedKey, List.find?_eq_none]
  constructor
  · intro nothing a b shares
    obtain ⟨mem, test⟩ := Image.shares_iff.mp shares
    exact nothing (a, b) mem test
  · intro unshared x mem test
    exact unshared x.1 x.2 (Image.shares_iff.mpr ⟨mem, test⟩)

/-- The pair that is found shares its key, and no pair before it does. -/
theorem Image.shares_of_sharedKey (found : img.sharedKey = some (a, b)) :
    img.Shares a b ∧ ∀ c d, img.Shares c d → PairLE a b c d := by
  obtain ⟨test, before, behind, pairs, rejected⟩ := List.find?_eq_some_iff_append.mp found
  have mem : (a, b) ∈ channelPairs := pairs ▸ List.mem_append_right _ (List.mem_cons_self ..)
  refine ⟨Image.shares_iff.mpr ⟨mem, test⟩, fun c d shares => ?_⟩
  obtain ⟨mem', test'⟩ := Image.shares_iff.mp shares
  have sorted := channelPairs_sorted
  rw [pairs] at mem' sorted
  rcases List.mem_append.mp mem' with earlier | later
  · have fails := rejected (c, d) earlier
    rw [test'] at fails
    cases fails
  · rcases List.mem_cons.mp later with same | later
    · cases same
      exact Or.inr ⟨rfl, le_refl _⟩
    · exact (List.pairwise_cons.mp (List.pairwise_append.mp sorted).2.1).1 (c, d) later

theorem Image.sharedKey_of_first (shares : img.Shares a b) (first : ∀ c d, img.Shares c d → PairLE a b c d) :
    img.sharedKey = some (a, b) := by
  cases found : img.sharedKey with
  | none => exact absurd shares (Image.sharedKey_eq_none_iff_shares.mp found a b)
  | some x =>
    obtain ⟨c, d⟩ := x
    obtain ⟨shares', first'⟩ := Image.shares_of_sharedKey found
    have there := first c d shares'
    have back := first' a b shares
    rcases there with before | ⟨rfl, le⟩
    · rcases back with after | ⟨rfl, -⟩
      · exact absurd after (lt_asymm before)
      · exact absurd before (lt_irrefl _)
    · rcases back with after | ⟨-, ge⟩
      · exact absurd after (lt_irrefl _)
      · rw [le_antisymm le ge]

end

/-! ### The first check that an image fails -/

section
variable {img : Image}

theorem Image.badItem_of_shared {a b : Channel} (shared : img.sharedKey = some (a, b)) :
    img.badItem = some (.gateKey, b.val) := by
  rw [Image.badItem, shared]

variable (unshared : img.sharedKey = none)
include unshared

theorem Image.badItem_of_shortLease {q : Port} (short : (img.port q).maxLease < 10#16)
    (first : ∀ q', q' < q → 10#16 ≤ (img.port q').maxLease) : img.badItem = some (.maxLease, q.val) := by
  have found : img.shortLease = some q :=
    find?_finRange_eq_some_iff.mpr ⟨decide_eq_true short, fun q' before =>
      decide_eq_false (BitVec.not_lt.mpr (first q' before))⟩
  rw [Image.badItem, unshared, found]

variable (long : ∀ q, 10#16 ≤ (img.port q).maxLease)
include long

theorem Image.badItem_of_long : img.badItem = if img.changeable then none else some (.frozen, 0) := by
  have none_short : img.shortLease = none :=
    List.find?_eq_none.mpr fun q _ short => BitVec.not_lt.mpr (long q) (of_decide_eq_true short)
  rw [Image.badItem, unshared, none_short]

end

/-! ### The acceptance -/

theorem ConfigUnit.nextTarget_eq (c : ConfigUnit) : c.nextTarget = ⟨match c.recordA, c.recordB with
    | some _, none => .b
    | none, some _ => .a
    | none, none => .a
    | some a, some b => if a < b then .a else .b, c.storedSeq.toNat + 1⟩ := by
  unfold ConfigUnit.nextTarget commitCopy
  cases c.recordA <;> cases c.recordB <;> rfl

/-- The sequence bytes of the first row (R171). -/
theorem firstRowRequest_nextTarget (c : ConfigUnit) (img : Image) : firstRowRequest c.nextTarget img =
    ⟨.copyOne c.nextTarget.copy, copyRowOne (c.storedSeq + 1#16) img, .configUnit⟩ := by
  have low : BitVec.ofNat 16 (c.storedSeq.toNat + 1) = c.storedSeq + 1#16 := by
    apply BitVec.eq_of_toNat_eq
    simp
  rw [firstRowRequest, ConfigUnit.nextTarget, low]

/-- The configuration unit with a commit accepted (R171). -/
def ConfigUnit.committing (c : ConfigUnit) : ConfigUnit :=
  { c with staging := .commitPending, target := some c.nextTarget }

theorem ConfigUnit.sequenceSpent_committing (c : ConfigUnit) :
    c.committing.sequenceSpent = true ↔ c.storedSeq = 65535#16 := by
  have bound := c.storedSeq.isLt
  rw [ConfigUnit.sequenceSpent_iff, ← BitVec.toNat_inj]
  constructor
  · rintro ⟨target, same, spent⟩
    cases same
    have spent : 65535 < c.storedSeq.toNat + 1 := spent
    rw [BitVec.toNat_ofNat]
    omega
  · intro last
    refine ⟨c.nextTarget, rfl, ?_⟩
    show 65535 < c.storedSeq.toNat + 1
    rw [last]
    decide

/-- A state with its first row at the commit input (R171). -/
def State.committing (s : State) (img : Image) : State :=
  { s with
    cfg := s.cfg.committing
    store := { s.store with commitInput := some (firstRowRequest s.cfg.nextTarget img) } }

theorem State.acceptCommit_eq (s : State) (img : Image) : s.acceptCommit img = (s.committing img).kickEngine := rfl

section
variable {s : State} {img : Image}

theorem State.acceptCommit_of_waits (waits : s.store.engine ≠ .idle ∨ s.supply.low = true) :
    s.acceptCommit img = s.committing img := by
  rw [State.acceptCommit_eq]
  by_cases idle : s.store.engine = .idle
  · exact State.kickEngine_of_low idle (waits.resolve_left (not_not.mpr idle))
  · exact State.kickEngine_of_busy idle

variable (idle : s.store.engine = .idle) (clear : s.supply.low = false)
include idle clear

theorem State.acceptCommit_of_advance {advance : RowRequest} (behind : s.store.advanceInput = some advance) :
    s.acceptCommit img = { s with
      cfg := s.cfg.committing
      store := { s.store with
        advanceInput := none, commitInput := some (firstRowRequest s.cfg.nextTarget img)
        engine := .busy advance .first .erase } } :=
  State.kickEngine_of_advance (s := s.committing img) idle clear behind

variable (alone : s.store.advanceInput = none)
include alone

theorem State.acceptCommit_of_spent (last : s.cfg.storedSeq = 65535#16) : s.acceptCommit img = { s with
      cfg := s.cfg.committing.endCommit .refused
      store := { s.store with commitInput := none } } := by
  refine (State.kickEngine_of_commit (s := s.committing img) idle clear alone rfl).trans ?_
  rw [State.startCommitRow]
  exact (if_pos rfl).trans (if_pos (s.cfg.sequenceSpent_committing.mpr last))

theorem State.acceptCommit_of_more (more : s.cfg.storedSeq ≠ 65535#16) : s.acceptCommit img = { s with
      cfg := { s.cfg.committing with staging := .programming }
      store := { s.store with
        commitInput := none, engine := .busy (firstRowRequest s.cfg.nextTarget img) .first .erase } } := by
  refine (State.kickEngine_of_commit (s := s.committing img) idle clear alone rfl).trans ?_
  rw [State.startCommitRow]
  exact (if_pos rfl).trans (if_neg (mt s.cfg.sequenceSpent_committing.mp more))

end

theorem commitBody_of_bad {s : State} {img : Image} {item : Item} {index : Nat}
    (bad : img.badItem = some (item, index)) : commitBody s img = ⟨s, .badImage, .badItem item index⟩ := by
  rw [commitBody, bad]

theorem commitBody_of_good {s : State} {img : Image} (good : img.badItem = none) :
    commitBody s img = ⟨s.acceptCommit img, .ok, .target s.cfg.nextTarget⟩ := by
  rw [commitBody, good]

/-- Settles O42: the checks of R167, the first check of R170 that fails, and the acceptance by what the engine does
with its inputs. -/
theorem commitOutcome : Obligations.CommitOutcome := by
  unfold Obligations.CommitOutcome
  intro s p tag c reply taken attached
  have row := exec_commit p s
  refine ⟨exec_of_closed row taken attached, exec_of_other row taken attached,
    fun img opened owner image => ?opened⟩
  case opened =>
    intro same unshared
    have none_shared : unshared ↔ img.sharedKey = none := Image.sharedKey_eq_none_iff_shares.symm
    have refuses : ∀ {item index}, img.badItem = some (item, index) → reply .badImage (.badItem item index) :=
      fun bad => exec_of_image_answer row taken attached opened owner image (commitBody_of_bad bad)
    refine ⟨fun a b shares first => ?shared, none_shared, fun q apart short first => ?short,
      fun apart long unfrozen locked => ?locked, fun apart long changeable => ?accepted⟩
    case shared =>
      have found : img.sharedKey = some (a, b) := Image.sharedKey_of_first shares first
      exact ⟨found, refuses (Image.badItem_of_shared found)⟩
    case short => exact refuses (Image.badItem_of_shortLease (none_shared.mp apart) short first)
    case locked =>
      refine refuses ((Image.badItem_of_long (none_shared.mp apart) long).trans (if_neg fun changeable => ?_))
      rcases img.changeable_iff.mp changeable with frozen | ⟨q, right⟩
      · rw [unfrozen] at frozen; cases frozen
      · rw [locked q] at right; cases right
    case accepted =>
      intro side target
      have isTarget : s.cfg.nextTarget = target := s.cfg.nextTarget_eq
      have good : img.badItem = none :=
        (Image.badItem_of_long (none_shared.mp apart) long).trans (if_pos (img.changeable_iff.mpr changeable))
      refine ⟨isTarget, ?_⟩
      intro cfg req
      have isReq : firstRowRequest target img = req := by
        rw [← isTarget, firstRowRequest_nextTarget, isTarget]
      refine ⟨isReq, ?_⟩
      intro accepted
      have accepts : ∀ {cfg' store'}, State.acceptCommit { s with served := p } img =
          { s with served := p, cfg := cfg', store := store' } → accepted cfg' store' := by
        intro cfg' store' becomes
        have good_row := exec_of_image row taken attached opened owner image (commitBody_of_good good)
        rw [becomes] at good_row
        refine good_row.trans ?_
        rw [← isTarget]
        rfl
      have isCfg : s.cfg.committing = cfg := by rw [ConfigUnit.committing, isTarget]
      have isFirst : firstRowRequest s.cfg.nextTarget img = req := by rw [isTarget, isReq]
      refine ⟨fun waits => accepts ?waits, fun idle clear advance behind => accepts ?behind,
        fun idle clear alone => ⟨fun last => accepts ?spent, fun more => accepts ?starts⟩⟩
      case waits =>
        rw [State.acceptCommit_of_waits (s := { s with served := p }) waits]
        simp only [State.committing, isCfg, isFirst]
      case behind =>
        rw [State.acceptCommit_of_advance (s := { s with served := p }) idle clear behind]
        simp only [isCfg, isFirst]
      case spent =>
        rw [State.acceptCommit_of_spent (s := { s with served := p }) idle clear alone last]
        simp only [isCfg, ConfigUnit.endCommit]
      case starts =>
        rw [State.acceptCommit_of_more (s := { s with served := p }) idle clear alone more]
        simp only [isCfg, isFirst]

end Sys2Proof.Machine
end
